-- ==== Sys2Proof/Word.lean ====
section
/-! DEFINITION. The two widths of the machine: the byte (registers A, X, Y, SP, memory cells) and the 16-bit address
(PC, effective addresses), 00_scope.md R9. Their plain arithmetic is BitVec's own: `+` and `-` on a Byte are the spec's
`+8` and `-8`, `+` on an Addr is its `+16` (R10). -/

namespace Sys2Proof

/-- An 8-bit value (00_scope.md R9, R10). -/
abbrev Byte := BitVec 8

/-- A 16-bit address (00_scope.md R9). -/
abbrev Addr := BitVec 16

end Sys2Proof
end

