-- ==== Sys2Proof/Machine/Bytes.lean ====
section
/-! DEFINITION. The notation of 00_scope.md R10 as functions: extensions, the pair `hi:lo`, the halves of a word and the
signed reading of a byte. -/

namespace Sys2Proof

/-- `zext16(v)` (00_scope.md R10). -/
def zext16 (v : Byte) : Addr := v.setWidth 16

/-- `signed8(v)`: the two's complement reading, -128 to 127 (00_scope.md R10). -/
def signed8 (v : Byte) : Int := v.toInt

/-- `hi:lo`, the value `hi * 256 + lo` (00_scope.md R10). -/
def hiLo (hi lo : Byte) : Addr := hi ++ lo

/-- Bits 7 to 0 of a word, `w[7:0]`. -/
def lowByte (w : Addr) : Byte := w.setWidth 8

/-- Bits 15 to 8 of a word, `w[15:8]`: its page (00_scope.md R19). -/
def highByte (w : Addr) : Byte := w.extractLsb' 8 8

/-- A single bit as a byte, 0 or 1. -/
def bitByte (b : Bool) : Byte := if b then 1#8 else 0#8

end Sys2Proof
end

