-- ==== Sys2Proof/Config.lean ====
section
/-! DEFINITION. What is fixed for the machine: the size of the memory, the power-on values the spec states, and the byte an
unlisted memory cell reads as. The spec leaves no result open, so there is no opaque free value here. -/

namespace Sys2Proof.Config

/-- The number of memory bytes, "fixed" (00_scope.md R9; 10_state.md R51). -/
def memorySize : Nat := 65536

/-- What a memory cell that no loader and no store has listed reads as.
DESIGN CHOICE, unsafe where a statement rests on it (notes/assumptions/1.md): the spec gives no default for a byte the
loader does not write (92_eei_decisions.md D12); 0x00 is what 95_test_vectors.md loads there. -/
def unlistedByte : Byte := 0x00#8

/-- A, X, Y and SP at power-on: "registers zeroed" (70_reset_and_hazards.md R380). -/
def powerOnByte : Byte := 0x00#8

/-- PC at launch when the loader sets none (70_reset_and_hazards.md R383). -/
def powerOnPc : Addr := 0x0000#16

end Sys2Proof.Config
end

