-- ==== Sys2Proof/Syntax.lean ====
section
/-! DEFINITION. The instruction set as syntax: mnemonics, addressing modes, the operands written in an instruction, the
inductive `Instr` with one constructor for each of the 151 rows of `opcode_table.json` (30_encoding.md R115), and the
decoder's descriptor (R114). No meaning stands here. -/

namespace Sys2Proof

/-- The 56 documented mnemonics (00_scope.md R2, R20). -/
inductive Mnemonic where
  -- Arithmetic, compare, increment, decrement (42_arithmetic.md)
  | ADC | SBC | CMP | CPX | CPY | INC | DEC | INX | INY | DEX | DEY
  -- Shifts, rotates, logic (43_shift_logic.md)
  | ASL | LSR | ROL | ROR | AND | ORA | EOR | BIT
  -- Branches and jumps (44_branch_jump.md)
  | BCC | BCS | BEQ | BNE | BMI | BPL | BVC | BVS | JMP
  -- Stack, subroutine, BRK and RTI (45_stack_subroutine.md)
  | PHA | PHP | PLA | PLP | JSR | RTS | BRK | RTI
  -- Loads, stores, transfers (46_load_store_transfer.md)
  | LDA | LDX | LDY | STA | STX | STY | TAX | TAY | TXA | TYA | TSX | TXS
  -- Flag instructions and NOP (47_flags_misc.md)
  | CLC | SEC | CLI | SEI | CLD | SED | CLV | NOP
  deriving DecidableEq, Repr

/-- The 13 addressing modes under the spec's own tags (00_scope.md R2; 41_addressing_modes.md R161 to R173). -/
inductive Mode where
  | IMP | ACC | IMM | ZP | ZPX | ZPY | ABS | ABSX | ABSY | INDX | INDY | IND | REL
  deriving DecidableEq, Repr

/-- An addressing mode together with the operand bytes the instruction carries (30_encoding.md R111): one byte for the
two-byte formats, the little-endian word of both bytes for the three-byte formats. -/
inductive Addressing where
  | imp
  | acc
  | imm (v : Byte)
  | zp (z : Byte)
  | zpx (z : Byte)
  | zpy (z : Byte)
  | abs (w : Addr)
  | absx (w : Addr)
  | absy (w : Addr)
  | indx (z : Byte)
  | indy (z : Byte)
  | ind (w : Addr)
  | rel (r : Byte)
  deriving DecidableEq, Repr

/-- The mode tag of an addressing. -/
def Addressing.mode : Addressing → Mode
  | .imp => .IMP
  | .acc => .ACC
  | .imm _ => .IMM
  | .zp _ => .ZP
  | .zpx _ => .ZPX
  | .zpy _ => .ZPY
  | .abs _ => .ABS
  | .absx _ => .ABSX
  | .absy _ => .ABSY
  | .indx _ => .INDX
  | .indy _ => .INDY
  | .ind _ => .IND
  | .rel _ => .REL

/-- The informative extra-cycle kinds (30_encoding.md R115, column "extra"; 70_reset_and_hazards.md R393). They are "applied
later by the executor, not encoded" in the descriptor (R114): Machine/Timing.lean gives each opcode its kind. -/
inductive ExtraCycles where
  | none
  | pageCross
  | branch
  deriving DecidableEq, Repr

/-- The decoder's output for a legal byte, with exactly the fields of 30_encoding.md R114: opcode byte, operation tag,
addressing-mode tag, byte length and base cycle count. -/
structure Descriptor where
  opcode : Byte
  operation : Mnemonic
  mode : Mode
  length : Nat
  cycles : Nat
  deriving DecidableEq, Repr

/-- The documented instructions, one constructor for each row of the opcode table: the mnemonic, then the mode (nothing
for Implied). Arguments: `v` an immediate byte, `z` a zero-page byte, `w` a 16-bit address or pointer, `r` a branch offset
byte. -/
inductive Instr where
  -- Arithmetic, compare, increment, decrement (42_arithmetic.md)
  | adcImm (v : Byte)
  | adcZp (z : Byte)
  | adcZpx (z : Byte)
  | adcAbs (w : Addr)
  | adcAbsx (w : Addr)
  | adcAbsy (w : Addr)
  | adcIndx (z : Byte)
  | adcIndy (z : Byte)
  | sbcImm (v : Byte)
  | sbcZp (z : Byte)
  | sbcZpx (z : Byte)
  | sbcAbs (w : Addr)
  | sbcAbsx (w : Addr)
  | sbcAbsy (w : Addr)
  | sbcIndx (z : Byte)
  | sbcIndy (z : Byte)
  | cmpImm (v : Byte)
  | cmpZp (z : Byte)
  | cmpZpx (z : Byte)
  | cmpAbs (w : Addr)
  | cmpAbsx (w : Addr)
  | cmpAbsy (w : Addr)
  | cmpIndx (z : Byte)
  | cmpIndy (z : Byte)
  | cpxImm (v : Byte)
  | cpxZp (z : Byte)
  | cpxAbs (w : Addr)
  | cpyImm (v : Byte)
  | cpyZp (z : Byte)
  | cpyAbs (w : Addr)
  | incZp (z : Byte)
  | incZpx (z : Byte)
  | incAbs (w : Addr)
  | incAbsx (w : Addr)
  | decZp (z : Byte)
  | decZpx (z : Byte)
  | decAbs (w : Addr)
  | decAbsx (w : Addr)
  | inx
  | iny
  | dex
  | dey
  -- Shifts, rotates, logic (43_shift_logic.md)
  | aslAcc
  | aslZp (z : Byte)
  | aslZpx (z : Byte)
  | aslAbs (w : Addr)
  | aslAbsx (w : Addr)
  | lsrAcc
  | lsrZp (z : Byte)
  | lsrZpx (z : Byte)
  | lsrAbs (w : Addr)
  | lsrAbsx (w : Addr)
  | rolAcc
  | rolZp (z : Byte)
  | rolZpx (z : Byte)
  | rolAbs (w : Addr)
  | rolAbsx (w : Addr)
  | rorAcc
  | rorZp (z : Byte)
  | rorZpx (z : Byte)
  | rorAbs (w : Addr)
  | rorAbsx (w : Addr)
  | andImm (v : Byte)
  | andZp (z : Byte)
  | andZpx (z : Byte)
  | andAbs (w : Addr)
  | andAbsx (w : Addr)
  | andAbsy (w : Addr)
  | andIndx (z : Byte)
  | andIndy (z : Byte)
  | oraImm (v : Byte)
  | oraZp (z : Byte)
  | oraZpx (z : Byte)
  | oraAbs (w : Addr)
  | oraAbsx (w : Addr)
  | oraAbsy (w : Addr)
  | oraIndx (z : Byte)
  | oraIndy (z : Byte)
  | eorImm (v : Byte)
  | eorZp (z : Byte)
  | eorZpx (z : Byte)
  | eorAbs (w : Addr)
  | eorAbsx (w : Addr)
  | eorAbsy (w : Addr)
  | eorIndx (z : Byte)
  | eorIndy (z : Byte)
  | bitZp (z : Byte)
  | bitAbs (w : Addr)
  -- Branches and jumps (44_branch_jump.md)
  | bccRel (r : Byte)
  | bcsRel (r : Byte)
  | beqRel (r : Byte)
  | bneRel (r : Byte)
  | bmiRel (r : Byte)
  | bplRel (r : Byte)
  | bvcRel (r : Byte)
  | bvsRel (r : Byte)
  | jmpAbs (w : Addr)
  | jmpInd (w : Addr)
  -- Stack, subroutine, BRK and RTI (45_stack_subroutine.md)
  | pha
  | php
  | pla
  | plp
  | jsrAbs (w : Addr)
  | rts
  | brk
  | rti
  -- Loads, stores, transfers (46_load_store_transfer.md)
  | ldaImm (v : Byte)
  | ldaZp (z : Byte)
  | ldaZpx (z : Byte)
  | ldaAbs (w : Addr)
  | ldaAbsx (w : Addr)
  | ldaAbsy (w : Addr)
  | ldaIndx (z : Byte)
  | ldaIndy (z : Byte)
  | ldxImm (v : Byte)
  | ldxZp (z : Byte)
  | ldxZpy (z : Byte)
  | ldxAbs (w : Addr)
  | ldxAbsy (w : Addr)
  | ldyImm (v : Byte)
  | ldyZp (z : Byte)
  | ldyZpx (z : Byte)
  | ldyAbs (w : Addr)
  | ldyAbsx (w : Addr)
  | staZp (z : Byte)
  | staZpx (z : Byte)
  | staAbs (w : Addr)
  | staAbsx (w : Addr)
  | staAbsy (w : Addr)
  | staIndx (z : Byte)
  | staIndy (z : Byte)
  | stxZp (z : Byte)
  | stxZpy (z : Byte)
  | stxAbs (w : Addr)
  | styZp (z : Byte)
  | styZpx (z : Byte)
  | styAbs (w : Addr)
  | tax
  | tay
  | txa
  | tya
  | tsx
  | txs
  -- Flag instructions and NOP (47_flags_misc.md)
  | clc
  | sec
  | cli
  | sei
  | cld
  | sed
  | clv
  | nop
  deriving DecidableEq, Repr

/-- The operation tag of an instruction. -/
def Instr.mnemonic : Instr → Mnemonic
  | .adcImm _ => .ADC
  | .adcZp _ => .ADC
  | .adcZpx _ => .ADC
  | .adcAbs _ => .ADC
  | .adcAbsx _ => .ADC
  | .adcAbsy _ => .ADC
  | .adcIndx _ => .ADC
  | .adcIndy _ => .ADC
  | .sbcImm _ => .SBC
  | .sbcZp _ => .SBC
  | .sbcZpx _ => .SBC
  | .sbcAbs _ => .SBC
  | .sbcAbsx _ => .SBC
  | .sbcAbsy _ => .SBC
  | .sbcIndx _ => .SBC
  | .sbcIndy _ => .SBC
  | .cmpImm _ => .CMP
  | .cmpZp _ => .CMP
  | .cmpZpx _ => .CMP
  | .cmpAbs _ => .CMP
  | .cmpAbsx _ => .CMP
  | .cmpAbsy _ => .CMP
  | .cmpIndx _ => .CMP
  | .cmpIndy _ => .CMP
  | .cpxImm _ => .CPX
  | .cpxZp _ => .CPX
  | .cpxAbs _ => .CPX
  | .cpyImm _ => .CPY
  | .cpyZp _ => .CPY
  | .cpyAbs _ => .CPY
  | .incZp _ => .INC
  | .incZpx _ => .INC
  | .incAbs _ => .INC
  | .incAbsx _ => .INC
  | .decZp _ => .DEC
  | .decZpx _ => .DEC
  | .decAbs _ => .DEC
  | .decAbsx _ => .DEC
  | .inx => .INX
  | .iny => .INY
  | .dex => .DEX
  | .dey => .DEY
  | .aslAcc => .ASL
  | .aslZp _ => .ASL
  | .aslZpx _ => .ASL
  | .aslAbs _ => .ASL
  | .aslAbsx _ => .ASL
  | .lsrAcc => .LSR
  | .lsrZp _ => .LSR
  | .lsrZpx _ => .LSR
  | .lsrAbs _ => .LSR
  | .lsrAbsx _ => .LSR
  | .rolAcc => .ROL
  | .rolZp _ => .ROL
  | .rolZpx _ => .ROL
  | .rolAbs _ => .ROL
  | .rolAbsx _ => .ROL
  | .rorAcc => .ROR
  | .rorZp _ => .ROR
  | .rorZpx _ => .ROR
  | .rorAbs _ => .ROR
  | .rorAbsx _ => .ROR
  | .andImm _ => .AND
  | .andZp _ => .AND
  | .andZpx _ => .AND
  | .andAbs _ => .AND
  | .andAbsx _ => .AND
  | .andAbsy _ => .AND
  | .andIndx _ => .AND
  | .andIndy _ => .AND
  | .oraImm _ => .ORA
  | .oraZp _ => .ORA
  | .oraZpx _ => .ORA
  | .oraAbs _ => .ORA
  | .oraAbsx _ => .ORA
  | .oraAbsy _ => .ORA
  | .oraIndx _ => .ORA
  | .oraIndy _ => .ORA
  | .eorImm _ => .EOR
  | .eorZp _ => .EOR
  | .eorZpx _ => .EOR
  | .eorAbs _ => .EOR
  | .eorAbsx _ => .EOR
  | .eorAbsy _ => .EOR
  | .eorIndx _ => .EOR
  | .eorIndy _ => .EOR
  | .bitZp _ => .BIT
  | .bitAbs _ => .BIT
  | .bccRel _ => .BCC
  | .bcsRel _ => .BCS
  | .beqRel _ => .BEQ
  | .bneRel _ => .BNE
  | .bmiRel _ => .BMI
  | .bplRel _ => .BPL
  | .bvcRel _ => .BVC
  | .bvsRel _ => .BVS
  | .jmpAbs _ => .JMP
  | .jmpInd _ => .JMP
  | .pha => .PHA
  | .php => .PHP
  | .pla => .PLA
  | .plp => .PLP
  | .jsrAbs _ => .JSR
  | .rts => .RTS
  | .brk => .BRK
  | .rti => .RTI
  | .ldaImm _ => .LDA
  | .ldaZp _ => .LDA
  | .ldaZpx _ => .LDA
  | .ldaAbs _ => .LDA
  | .ldaAbsx _ => .LDA
  | .ldaAbsy _ => .LDA
  | .ldaIndx _ => .LDA
  | .ldaIndy _ => .LDA
  | .ldxImm _ => .LDX
  | .ldxZp _ => .LDX
  | .ldxZpy _ => .LDX
  | .ldxAbs _ => .LDX
  | .ldxAbsy _ => .LDX
  | .ldyImm _ => .LDY
  | .ldyZp _ => .LDY
  | .ldyZpx _ => .LDY
  | .ldyAbs _ => .LDY
  | .ldyAbsx _ => .LDY
  | .staZp _ => .STA
  | .staZpx _ => .STA
  | .staAbs _ => .STA
  | .staAbsx _ => .STA
  | .staAbsy _ => .STA
  | .staIndx _ => .STA
  | .staIndy _ => .STA
  | .stxZp _ => .STX
  | .stxZpy _ => .STX
  | .stxAbs _ => .STX
  | .styZp _ => .STY
  | .styZpx _ => .STY
  | .styAbs _ => .STY
  | .tax => .TAX
  | .tay => .TAY
  | .txa => .TXA
  | .tya => .TYA
  | .tsx => .TSX
  | .txs => .TXS
  | .clc => .CLC
  | .sec => .SEC
  | .cli => .CLI
  | .sei => .SEI
  | .cld => .CLD
  | .sed => .SED
  | .clv => .CLV
  | .nop => .NOP

/-- The addressing mode of an instruction with the operand bytes it carries. -/
def Instr.addressing : Instr → Addressing
  | .adcImm v => .imm v
  | .adcZp z => .zp z
  | .adcZpx z => .zpx z
  | .adcAbs w => .abs w
  | .adcAbsx w => .absx w
  | .adcAbsy w => .absy w
  | .adcIndx z => .indx z
  | .adcIndy z => .indy z
  | .sbcImm v => .imm v
  | .sbcZp z => .zp z
  | .sbcZpx z => .zpx z
  | .sbcAbs w => .abs w
  | .sbcAbsx w => .absx w
  | .sbcAbsy w => .absy w
  | .sbcIndx z => .indx z
  | .sbcIndy z => .indy z
  | .cmpImm v => .imm v
  | .cmpZp z => .zp z
  | .cmpZpx z => .zpx z
  | .cmpAbs w => .abs w
  | .cmpAbsx w => .absx w
  | .cmpAbsy w => .absy w
  | .cmpIndx z => .indx z
  | .cmpIndy z => .indy z
  | .cpxImm v => .imm v
  | .cpxZp z => .zp z
  | .cpxAbs w => .abs w
  | .cpyImm v => .imm v
  | .cpyZp z => .zp z
  | .cpyAbs w => .abs w
  | .incZp z => .zp z
  | .incZpx z => .zpx z
  | .incAbs w => .abs w
  | .incAbsx w => .absx w
  | .decZp z => .zp z
  | .decZpx z => .zpx z
  | .decAbs w => .abs w
  | .decAbsx w => .absx w
  | .inx => .imp
  | .iny => .imp
  | .dex => .imp
  | .dey => .imp
  | .aslAcc => .acc
  | .aslZp z => .zp z
  | .aslZpx z => .zpx z
  | .aslAbs w => .abs w
  | .aslAbsx w => .absx w
  | .lsrAcc => .acc
  | .lsrZp z => .zp z
  | .lsrZpx z => .zpx z
  | .lsrAbs w => .abs w
  | .lsrAbsx w => .absx w
  | .rolAcc => .acc
  | .rolZp z => .zp z
  | .rolZpx z => .zpx z
  | .rolAbs w => .abs w
  | .rolAbsx w => .absx w
  | .rorAcc => .acc
  | .rorZp z => .zp z
  | .rorZpx z => .zpx z
  | .rorAbs w => .abs w
  | .rorAbsx w => .absx w
  | .andImm v => .imm v
  | .andZp z => .zp z
  | .andZpx z => .zpx z
  | .andAbs w => .abs w
  | .andAbsx w => .absx w
  | .andAbsy w => .absy w
  | .andIndx z => .indx z
  | .andIndy z => .indy z
  | .oraImm v => .imm v
  | .oraZp z => .zp z
  | .oraZpx z => .zpx z
  | .oraAbs w => .abs w
  | .oraAbsx w => .absx w
  | .oraAbsy w => .absy w
  | .oraIndx z => .indx z
  | .oraIndy z => .indy z
  | .eorImm v => .imm v
  | .eorZp z => .zp z
  | .eorZpx z => .zpx z
  | .eorAbs w => .abs w
  | .eorAbsx w => .absx w
  | .eorAbsy w => .absy w
  | .eorIndx z => .indx z
  | .eorIndy z => .indy z
  | .bitZp z => .zp z
  | .bitAbs w => .abs w
  | .bccRel r => .rel r
  | .bcsRel r => .rel r
  | .beqRel r => .rel r
  | .bneRel r => .rel r
  | .bmiRel r => .rel r
  | .bplRel r => .rel r
  | .bvcRel r => .rel r
  | .bvsRel r => .rel r
  | .jmpAbs w => .abs w
  | .jmpInd w => .ind w
  | .pha => .imp
  | .php => .imp
  | .pla => .imp
  | .plp => .imp
  | .jsrAbs w => .abs w
  | .rts => .imp
  | .brk => .imp
  | .rti => .imp
  | .ldaImm v => .imm v
  | .ldaZp z => .zp z
  | .ldaZpx z => .zpx z
  | .ldaAbs w => .abs w
  | .ldaAbsx w => .absx w
  | .ldaAbsy w => .absy w
  | .ldaIndx z => .indx z
  | .ldaIndy z => .indy z
  | .ldxImm v => .imm v
  | .ldxZp z => .zp z
  | .ldxZpy z => .zpy z
  | .ldxAbs w => .abs w
  | .ldxAbsy w => .absy w
  | .ldyImm v => .imm v
  | .ldyZp z => .zp z
  | .ldyZpx z => .zpx z
  | .ldyAbs w => .abs w
  | .ldyAbsx w => .absx w
  | .staZp z => .zp z
  | .staZpx z => .zpx z
  | .staAbs w => .abs w
  | .staAbsx w => .absx w
  | .staAbsy w => .absy w
  | .staIndx z => .indx z
  | .staIndy z => .indy z
  | .stxZp z => .zp z
  | .stxZpy z => .zpy z
  | .stxAbs w => .abs w
  | .styZp z => .zp z
  | .styZpx z => .zpx z
  | .styAbs w => .abs w
  | .tax => .imp
  | .tay => .imp
  | .txa => .imp
  | .tya => .imp
  | .tsx => .imp
  | .txs => .imp
  | .clc => .imp
  | .sec => .imp
  | .cli => .imp
  | .sei => .imp
  | .cld => .imp
  | .sed => .imp
  | .clv => .imp
  | .nop => .imp

/-- The mode tag of an instruction. -/
def Instr.mode (i : Instr) : Mode := i.addressing.mode

end Sys2Proof
end

