-- ==== Sys2Proof/WellFormed.lean ====
section
/-! DEFINITION. Which descriptors are well-formed: the mode-to-length pairing of 30_encoding.md R111 and the mode sets of
41_addressing_modes.md R177, as checks that run. Every operand field of `Instr` has exactly the width its encoding gives
it, so no operand value is ill-formed. -/

namespace Sys2Proof

/-- The byte length of an instruction by its mode (30_encoding.md R111). -/
def Mode.length : Mode → Nat
  | .IMP | .ACC => 1
  | .IMM | .ZP | .ZPX | .ZPY | .INDX | .INDY | .REL => 2
  | .ABS | .ABSX | .ABSY | .IND => 3

/-- The modes a mnemonic takes (41_addressing_modes.md R177). -/
def Mnemonic.modes : Mnemonic → List Mode
  | .ORA | .AND | .EOR | .ADC | .LDA | .CMP | .SBC => [.IMM, .ZP, .ZPX, .ABS, .ABSX, .ABSY, .INDX, .INDY]
  | .STA => [.ZP, .ZPX, .ABS, .ABSX, .ABSY, .INDX, .INDY]
  | .ASL | .ROL | .LSR | .ROR => [.ACC, .ZP, .ZPX, .ABS, .ABSX]
  | .INC | .DEC => [.ZP, .ZPX, .ABS, .ABSX]
  | .LDX => [.IMM, .ZP, .ZPY, .ABS, .ABSY]
  | .LDY => [.IMM, .ZP, .ZPX, .ABS, .ABSX]
  | .STX => [.ZP, .ZPY, .ABS]
  | .STY => [.ZP, .ZPX, .ABS]
  | .CPX | .CPY => [.IMM, .ZP, .ABS]
  | .BIT => [.ZP, .ABS]
  | .JMP => [.ABS, .IND]
  | .JSR => [.ABS]
  | .BCC | .BCS | .BEQ | .BNE | .BMI | .BPL | .BVC | .BVS => [.REL]
  | .INX | .INY | .DEX | .DEY | .PHA | .PHP | .PLA | .PLP | .RTS | .BRK | .RTI
  | .TAX | .TAY | .TXA | .TYA | .TSX | .TXS | .CLC | .SEC | .CLI | .SEI | .CLD | .SED | .CLV | .NOP => [.IMP]

/-- The check of R177: the operation takes the mode. -/
def modeAllowed (m : Mnemonic) (d : Mode) : Bool := m.modes.contains d

/-- The check of R111: the length is the mode's. -/
def lengthMatches (d : Mode) (n : Nat) : Bool := n == d.length

/-- A descriptor is well-formed when its operation takes its mode and its length is the mode's. -/
def Descriptor.wellFormed (d : Descriptor) : Bool := modeAllowed d.operation d.mode && lengthMatches d.mode d.length

/-- An instruction is well-formed when its mnemonic takes its mode (R177). -/
def Instr.wellFormed (i : Instr) : Bool := modeAllowed i.mnemonic i.mode

end Sys2Proof
end

