-- ==== Sys2Proof/Decode.lean ====
section
/-! DEFINITION. The `instruction_decoder` (30_encoding.md): the dense 256-entry table keyed on the whole opcode byte, the
decoder on a list of bytes, and after them the encoder, written from the same table of R115 and the formats of R111. -/

namespace Sys2Proof

/-- How an instruction is built from its operand bytes: formats of one, two and three bytes (30_encoding.md R111). -/
inductive Format where
  | one (i : Instr)
  | two (f : Byte → Instr)
  | three (f : Addr → Instr)

/-- The byte length of a format. -/
def Format.length : Format → Nat
  | .one _ => 1
  | .two _ => 2
  | .three _ => 3

/-- One entry of the decode table: the Illegal descriptor (R117), or a legal row of R115. -/
inductive Entry where
  | illegal
  | legal (operation : Mnemonic) (mode : Mode) (cycles : Nat) (format : Format)

/-- Opcode bytes 0x00 to 0x0F (30_encoding.md R115, R116; the bytes of R117 are illegal). -/
def decodeRow0 : List Entry := [
  .legal .BRK .IMP 7 (.one .brk),
  .legal .ORA .INDX 6 (.two .oraIndx),
  .illegal,
  .illegal,
  .illegal,
  .legal .ORA .ZP 3 (.two .oraZp),
  .legal .ASL .ZP 5 (.two .aslZp),
  .illegal,
  .legal .PHP .IMP 3 (.one .php),
  .legal .ORA .IMM 2 (.two .oraImm),
  .legal .ASL .ACC 2 (.one .aslAcc),
  .illegal,
  .illegal,
  .legal .ORA .ABS 4 (.three .oraAbs),
  .legal .ASL .ABS 6 (.three .aslAbs),
  .illegal]

/-- Opcode bytes 0x10 to 0x1F (30_encoding.md R115, R116; the bytes of R117 are illegal). -/
def decodeRow1 : List Entry := [
  .legal .BPL .REL 2 (.two .bplRel),
  .legal .ORA .INDY 5 (.two .oraIndy),
  .illegal,
  .illegal,
  .illegal,
  .legal .ORA .ZPX 4 (.two .oraZpx),
  .legal .ASL .ZPX 6 (.two .aslZpx),
  .illegal,
  .legal .CLC .IMP 2 (.one .clc),
  .legal .ORA .ABSY 4 (.three .oraAbsy),
  .illegal,
  .illegal,
  .illegal,
  .legal .ORA .ABSX 4 (.three .oraAbsx),
  .legal .ASL .ABSX 7 (.three .aslAbsx),
  .illegal]

/-- Opcode bytes 0x20 to 0x2F (30_encoding.md R115, R116; the bytes of R117 are illegal). -/
def decodeRow2 : List Entry := [
  .legal .JSR .ABS 6 (.three .jsrAbs),
  .legal .AND .INDX 6 (.two .andIndx),
  .illegal,
  .illegal,
  .legal .BIT .ZP 3 (.two .bitZp),
  .legal .AND .ZP 3 (.two .andZp),
  .legal .ROL .ZP 5 (.two .rolZp),
  .illegal,
  .legal .PLP .IMP 4 (.one .plp),
  .legal .AND .IMM 2 (.two .andImm),
  .legal .ROL .ACC 2 (.one .rolAcc),
  .illegal,
  .legal .BIT .ABS 4 (.three .bitAbs),
  .legal .AND .ABS 4 (.three .andAbs),
  .legal .ROL .ABS 6 (.three .rolAbs),
  .illegal]

/-- Opcode bytes 0x30 to 0x3F (30_encoding.md R115, R116; the bytes of R117 are illegal). -/
def decodeRow3 : List Entry := [
  .legal .BMI .REL 2 (.two .bmiRel),
  .legal .AND .INDY 5 (.two .andIndy),
  .illegal,
  .illegal,
  .illegal,
  .legal .AND .ZPX 4 (.two .andZpx),
  .legal .ROL .ZPX 6 (.two .rolZpx),
  .illegal,
  .legal .SEC .IMP 2 (.one .sec),
  .legal .AND .ABSY 4 (.three .andAbsy),
  .illegal,
  .illegal,
  .illegal,
  .legal .AND .ABSX 4 (.three .andAbsx),
  .legal .ROL .ABSX 7 (.three .rolAbsx),
  .illegal]

/-- Opcode bytes 0x40 to 0x4F (30_encoding.md R115, R116; the bytes of R117 are illegal). -/
def decodeRow4 : List Entry := [
  .legal .RTI .IMP 6 (.one .rti),
  .legal .EOR .INDX 6 (.two .eorIndx),
  .illegal,
  .illegal,
  .illegal,
  .legal .EOR .ZP 3 (.two .eorZp),
  .legal .LSR .ZP 5 (.two .lsrZp),
  .illegal,
  .legal .PHA .IMP 3 (.one .pha),
  .legal .EOR .IMM 2 (.two .eorImm),
  .legal .LSR .ACC 2 (.one .lsrAcc),
  .illegal,
  .legal .JMP .ABS 3 (.three .jmpAbs),
  .legal .EOR .ABS 4 (.three .eorAbs),
  .legal .LSR .ABS 6 (.three .lsrAbs),
  .illegal]

/-- Opcode bytes 0x50 to 0x5F (30_encoding.md R115, R116; the bytes of R117 are illegal). -/
def decodeRow5 : List Entry := [
  .legal .BVC .REL 2 (.two .bvcRel),
  .legal .EOR .INDY 5 (.two .eorIndy),
  .illegal,
  .illegal,
  .illegal,
  .legal .EOR .ZPX 4 (.two .eorZpx),
  .legal .LSR .ZPX 6 (.two .lsrZpx),
  .illegal,
  .legal .CLI .IMP 2 (.one .cli),
  .legal .EOR .ABSY 4 (.three .eorAbsy),
  .illegal,
  .illegal,
  .illegal,
  .legal .EOR .ABSX 4 (.three .eorAbsx),
  .legal .LSR .ABSX 7 (.three .lsrAbsx),
  .illegal]

/-- Opcode bytes 0x60 to 0x6F (30_encoding.md R115, R116; the bytes of R117 are illegal). -/
def decodeRow6 : List Entry := [
  .legal .RTS .IMP 6 (.one .rts),
  .legal .ADC .INDX 6 (.two .adcIndx),
  .illegal,
  .illegal,
  .illegal,
  .legal .ADC .ZP 3 (.two .adcZp),
  .legal .ROR .ZP 5 (.two .rorZp),
  .illegal,
  .legal .PLA .IMP 4 (.one .pla),
  .legal .ADC .IMM 2 (.two .adcImm),
  .legal .ROR .ACC 2 (.one .rorAcc),
  .illegal,
  .legal .JMP .IND 5 (.three .jmpInd),
  .legal .ADC .ABS 4 (.three .adcAbs),
  .legal .ROR .ABS 6 (.three .rorAbs),
  .illegal]

/-- Opcode bytes 0x70 to 0x7F (30_encoding.md R115, R116; the bytes of R117 are illegal). -/
def decodeRow7 : List Entry := [
  .legal .BVS .REL 2 (.two .bvsRel),
  .legal .ADC .INDY 5 (.two .adcIndy),
  .illegal,
  .illegal,
  .illegal,
  .legal .ADC .ZPX 4 (.two .adcZpx),
  .legal .ROR .ZPX 6 (.two .rorZpx),
  .illegal,
  .legal .SEI .IMP 2 (.one .sei),
  .legal .ADC .ABSY 4 (.three .adcAbsy),
  .illegal,
  .illegal,
  .illegal,
  .legal .ADC .ABSX 4 (.three .adcAbsx),
  .legal .ROR .ABSX 7 (.three .rorAbsx),
  .illegal]

/-- Opcode bytes 0x80 to 0x8F (30_encoding.md R115, R116; the bytes of R117 are illegal). -/
def decodeRow8 : List Entry := [
  .illegal,
  .legal .STA .INDX 6 (.two .staIndx),
  .illegal,
  .illegal,
  .legal .STY .ZP 3 (.two .styZp),
  .legal .STA .ZP 3 (.two .staZp),
  .legal .STX .ZP 3 (.two .stxZp),
  .illegal,
  .legal .DEY .IMP 2 (.one .dey),
  .illegal,
  .legal .TXA .IMP 2 (.one .txa),
  .illegal,
  .legal .STY .ABS 4 (.three .styAbs),
  .legal .STA .ABS 4 (.three .staAbs),
  .legal .STX .ABS 4 (.three .stxAbs),
  .illegal]

/-- Opcode bytes 0x90 to 0x9F (30_encoding.md R115, R116; the bytes of R117 are illegal). -/
def decodeRow9 : List Entry := [
  .legal .BCC .REL 2 (.two .bccRel),
  .legal .STA .INDY 6 (.two .staIndy),
  .illegal,
  .illegal,
  .legal .STY .ZPX 4 (.two .styZpx),
  .legal .STA .ZPX 4 (.two .staZpx),
  .legal .STX .ZPY 4 (.two .stxZpy),
  .illegal,
  .legal .TYA .IMP 2 (.one .tya),
  .legal .STA .ABSY 5 (.three .staAbsy),
  .legal .TXS .IMP 2 (.one .txs),
  .illegal,
  .illegal,
  .legal .STA .ABSX 5 (.three .staAbsx),
  .illegal,
  .illegal]

/-- Opcode bytes 0xA0 to 0xAF (30_encoding.md R115, R116; the bytes of R117 are illegal). -/
def decodeRowA : List Entry := [
  .legal .LDY .IMM 2 (.two .ldyImm),
  .legal .LDA .INDX 6 (.two .ldaIndx),
  .legal .LDX .IMM 2 (.two .ldxImm),
  .illegal,
  .legal .LDY .ZP 3 (.two .ldyZp),
  .legal .LDA .ZP 3 (.two .ldaZp),
  .legal .LDX .ZP 3 (.two .ldxZp),
  .illegal,
  .legal .TAY .IMP 2 (.one .tay),
  .legal .LDA .IMM 2 (.two .ldaImm),
  .legal .TAX .IMP 2 (.one .tax),
  .illegal,
  .legal .LDY .ABS 4 (.three .ldyAbs),
  .legal .LDA .ABS 4 (.three .ldaAbs),
  .legal .LDX .ABS 4 (.three .ldxAbs),
  .illegal]

/-- Opcode bytes 0xB0 to 0xBF (30_encoding.md R115, R116; the bytes of R117 are illegal). -/
def decodeRowB : List Entry := [
  .legal .BCS .REL 2 (.two .bcsRel),
  .legal .LDA .INDY 5 (.two .ldaIndy),
  .illegal,
  .illegal,
  .legal .LDY .ZPX 4 (.two .ldyZpx),
  .legal .LDA .ZPX 4 (.two .ldaZpx),
  .legal .LDX .ZPY 4 (.two .ldxZpy),
  .illegal,
  .legal .CLV .IMP 2 (.one .clv),
  .legal .LDA .ABSY 4 (.three .ldaAbsy),
  .legal .TSX .IMP 2 (.one .tsx),
  .illegal,
  .legal .LDY .ABSX 4 (.three .ldyAbsx),
  .legal .LDA .ABSX 4 (.three .ldaAbsx),
  .legal .LDX .ABSY 4 (.three .ldxAbsy),
  .illegal]

/-- Opcode bytes 0xC0 to 0xCF (30_encoding.md R115, R116; the bytes of R117 are illegal). -/
def decodeRowC : List Entry := [
  .legal .CPY .IMM 2 (.two .cpyImm),
  .legal .CMP .INDX 6 (.two .cmpIndx),
  .illegal,
  .illegal,
  .legal .CPY .ZP 3 (.two .cpyZp),
  .legal .CMP .ZP 3 (.two .cmpZp),
  .legal .DEC .ZP 5 (.two .decZp),
  .illegal,
  .legal .INY .IMP 2 (.one .iny),
  .legal .CMP .IMM 2 (.two .cmpImm),
  .legal .DEX .IMP 2 (.one .dex),
  .illegal,
  .legal .CPY .ABS 4 (.three .cpyAbs),
  .legal .CMP .ABS 4 (.three .cmpAbs),
  .legal .DEC .ABS 6 (.three .decAbs),
  .illegal]

/-- Opcode bytes 0xD0 to 0xDF (30_encoding.md R115, R116; the bytes of R117 are illegal). -/
def decodeRowD : List Entry := [
  .legal .BNE .REL 2 (.two .bneRel),
  .legal .CMP .INDY 5 (.two .cmpIndy),
  .illegal,
  .illegal,
  .illegal,
  .legal .CMP .ZPX 4 (.two .cmpZpx),
  .legal .DEC .ZPX 6 (.two .decZpx),
  .illegal,
  .legal .CLD .IMP 2 (.one .cld),
  .legal .CMP .ABSY 4 (.three .cmpAbsy),
  .illegal,
  .illegal,
  .illegal,
  .legal .CMP .ABSX 4 (.three .cmpAbsx),
  .legal .DEC .ABSX 7 (.three .decAbsx),
  .illegal]

/-- Opcode bytes 0xE0 to 0xEF (30_encoding.md R115, R116; the bytes of R117 are illegal). -/
def decodeRowE : List Entry := [
  .legal .CPX .IMM 2 (.two .cpxImm),
  .legal .SBC .INDX 6 (.two .sbcIndx),
  .illegal,
  .illegal,
  .legal .CPX .ZP 3 (.two .cpxZp),
  .legal .SBC .ZP 3 (.two .sbcZp),
  .legal .INC .ZP 5 (.two .incZp),
  .illegal,
  .legal .INX .IMP 2 (.one .inx),
  .legal .SBC .IMM 2 (.two .sbcImm),
  .legal .NOP .IMP 2 (.one .nop),
  .illegal,
  .legal .CPX .ABS 4 (.three .cpxAbs),
  .legal .SBC .ABS 4 (.three .sbcAbs),
  .legal .INC .ABS 6 (.three .incAbs),
  .illegal]

/-- Opcode bytes 0xF0 to 0xFF (30_encoding.md R115, R116; the bytes of R117 are illegal). -/
def decodeRowF : List Entry := [
  .legal .BEQ .REL 2 (.two .beqRel),
  .legal .SBC .INDY 5 (.two .sbcIndy),
  .illegal,
  .illegal,
  .illegal,
  .legal .SBC .ZPX 4 (.two .sbcZpx),
  .legal .INC .ZPX 6 (.two .incZpx),
  .illegal,
  .legal .SED .IMP 2 (.one .sed),
  .legal .SBC .ABSY 4 (.three .sbcAbsy),
  .illegal,
  .illegal,
  .illegal,
  .legal .SBC .ABSX 4 (.three .sbcAbsx),
  .legal .INC .ABSX 7 (.three .incAbsx),
  .illegal]

/-- "A dense 256-entry lookup table, one row per possible byte value" (30_encoding.md R113). -/
def decodeTable : List Entry :=
  decodeRow0 ++ decodeRow1 ++ decodeRow2 ++ decodeRow3 ++
  decodeRow4 ++ decodeRow5 ++ decodeRow6 ++ decodeRow7 ++
  decodeRow8 ++ decodeRow9 ++ decodeRowA ++ decodeRowB ++
  decodeRowC ++ decodeRowD ++ decodeRowE ++ decodeRowF

/-- The table's entry for an opcode byte: a total, pure function of the whole byte (R113). -/
def decodeOpcode (op : Byte) : Entry := decodeTable.getD op.toNat .illegal

/-- The descriptor of a byte (R114), `none` for the Illegal descriptor (R117). -/
def describeOpcode (op : Byte) : Option Descriptor :=
  match decodeOpcode op with
  | .illegal => none
  | .legal operation mode cycles format => some
      { opcode := op, operation := operation, mode := mode, length := format.length, cycles := cycles }

/-- What the decoder answers: an instruction and the bytes after it, or a rejection by name. -/
inductive Decoded where
  /-- a legal instruction, and the bytes that follow it -/
  | instr (i : Instr) (rest : List Byte)
  /-- the first byte has no documented assignment (30_encoding.md R117) -/
  | illegalOpcode (op : Byte)
  /-- the list ends before the operand bytes the opcode needs; never from memory, which has every byte -/
  | truncated (op : Byte)
  /-- the list is empty; never from memory -/
  | noOpcode
  deriving DecidableEq, Repr

/-- Operand assembly (30_encoding.md R112): the bytes after the opcode, low byte first. -/
def Format.assemble (op : Byte) : Format → List Byte → Decoded
  | .one i, rest => .instr i rest
  | .two f, b1 :: rest => .instr (f b1) rest
  | .three f, b1 :: b2 :: rest => .instr (f (hiLo b2 b1)) rest
  | .two _, [] => .truncated op
  | .three _, [] => .truncated op
  | .three _, [_] => .truncated op

/-- The decoder on a byte stream: only the first byte is looked up (30_encoding.md R110, R118). -/
def decode : List Byte → Decoded
  | [] => .noOpcode
  | op :: rest =>
    match decodeOpcode op with
    | .illegal => .illegalOpcode op
    | .legal _ _ _ format => format.assemble op rest

/-- The bytes of an instruction whose bits are `w`, numbered as the opcode table numbers them: bit 0 is the least
significant bit of the first byte; every bit from `nbits` on is 0; the longest instruction has three bytes. -/
def tableBytes (nbits w : Nat) : List Byte :=
  let v := w % 2 ^ nbits
  [BitVec.ofNat 8 v, BitVec.ofNat 8 (v / 256), BitVec.ofNat 8 (v / 65536)]

/-- The instruction this decoder reads from an instruction whose bits are `w`. -/
def decodeTableWord (nbits w : Nat) : Option Instr :=
  match decode (tableBytes nbits w) with
  | .instr i _ => some i
  | .illegalOpcode _ | .truncated _ | .noOpcode => none

/-! ### The encoder -/

/-- The opcode byte of an instruction (30_encoding.md R115). -/
def Instr.opcode : Instr → Byte
  | .adcImm _ => 0x69#8
  | .adcZp _ => 0x65#8
  | .adcZpx _ => 0x75#8
  | .adcAbs _ => 0x6D#8
  | .adcAbsx _ => 0x7D#8
  | .adcAbsy _ => 0x79#8
  | .adcIndx _ => 0x61#8
  | .adcIndy _ => 0x71#8
  | .sbcImm _ => 0xE9#8
  | .sbcZp _ => 0xE5#8
  | .sbcZpx _ => 0xF5#8
  | .sbcAbs _ => 0xED#8
  | .sbcAbsx _ => 0xFD#8
  | .sbcAbsy _ => 0xF9#8
  | .sbcIndx _ => 0xE1#8
  | .sbcIndy _ => 0xF1#8
  | .cmpImm _ => 0xC9#8
  | .cmpZp _ => 0xC5#8
  | .cmpZpx _ => 0xD5#8
  | .cmpAbs _ => 0xCD#8
  | .cmpAbsx _ => 0xDD#8
  | .cmpAbsy _ => 0xD9#8
  | .cmpIndx _ => 0xC1#8
  | .cmpIndy _ => 0xD1#8
  | .cpxImm _ => 0xE0#8
  | .cpxZp _ => 0xE4#8
  | .cpxAbs _ => 0xEC#8
  | .cpyImm _ => 0xC0#8
  | .cpyZp _ => 0xC4#8
  | .cpyAbs _ => 0xCC#8
  | .incZp _ => 0xE6#8
  | .incZpx _ => 0xF6#8
  | .incAbs _ => 0xEE#8
  | .incAbsx _ => 0xFE#8
  | .decZp _ => 0xC6#8
  | .decZpx _ => 0xD6#8
  | .decAbs _ => 0xCE#8
  | .decAbsx _ => 0xDE#8
  | .inx => 0xE8#8
  | .iny => 0xC8#8
  | .dex => 0xCA#8
  | .dey => 0x88#8
  | .aslAcc => 0x0A#8
  | .aslZp _ => 0x06#8
  | .aslZpx _ => 0x16#8
  | .aslAbs _ => 0x0E#8
  | .aslAbsx _ => 0x1E#8
  | .lsrAcc => 0x4A#8
  | .lsrZp _ => 0x46#8
  | .lsrZpx _ => 0x56#8
  | .lsrAbs _ => 0x4E#8
  | .lsrAbsx _ => 0x5E#8
  | .rolAcc => 0x2A#8
  | .rolZp _ => 0x26#8
  | .rolZpx _ => 0x36#8
  | .rolAbs _ => 0x2E#8
  | .rolAbsx _ => 0x3E#8
  | .rorAcc => 0x6A#8
  | .rorZp _ => 0x66#8
  | .rorZpx _ => 0x76#8
  | .rorAbs _ => 0x6E#8
  | .rorAbsx _ => 0x7E#8
  | .andImm _ => 0x29#8
  | .andZp _ => 0x25#8
  | .andZpx _ => 0x35#8
  | .andAbs _ => 0x2D#8
  | .andAbsx _ => 0x3D#8
  | .andAbsy _ => 0x39#8
  | .andIndx _ => 0x21#8
  | .andIndy _ => 0x31#8
  | .oraImm _ => 0x09#8
  | .oraZp _ => 0x05#8
  | .oraZpx _ => 0x15#8
  | .oraAbs _ => 0x0D#8
  | .oraAbsx _ => 0x1D#8
  | .oraAbsy _ => 0x19#8
  | .oraIndx _ => 0x01#8
  | .oraIndy _ => 0x11#8
  | .eorImm _ => 0x49#8
  | .eorZp _ => 0x45#8
  | .eorZpx _ => 0x55#8
  | .eorAbs _ => 0x4D#8
  | .eorAbsx _ => 0x5D#8
  | .eorAbsy _ => 0x59#8
  | .eorIndx _ => 0x41#8
  | .eorIndy _ => 0x51#8
  | .bitZp _ => 0x24#8
  | .bitAbs _ => 0x2C#8
  | .bccRel _ => 0x90#8
  | .bcsRel _ => 0xB0#8
  | .beqRel _ => 0xF0#8
  | .bneRel _ => 0xD0#8
  | .bmiRel _ => 0x30#8
  | .bplRel _ => 0x10#8
  | .bvcRel _ => 0x50#8
  | .bvsRel _ => 0x70#8
  | .jmpAbs _ => 0x4C#8
  | .jmpInd _ => 0x6C#8
  | .pha => 0x48#8
  | .php => 0x08#8
  | .pla => 0x68#8
  | .plp => 0x28#8
  | .jsrAbs _ => 0x20#8
  | .rts => 0x60#8
  | .brk => 0x00#8
  | .rti => 0x40#8
  | .ldaImm _ => 0xA9#8
  | .ldaZp _ => 0xA5#8
  | .ldaZpx _ => 0xB5#8
  | .ldaAbs _ => 0xAD#8
  | .ldaAbsx _ => 0xBD#8
  | .ldaAbsy _ => 0xB9#8
  | .ldaIndx _ => 0xA1#8
  | .ldaIndy _ => 0xB1#8
  | .ldxImm _ => 0xA2#8
  | .ldxZp _ => 0xA6#8
  | .ldxZpy _ => 0xB6#8
  | .ldxAbs _ => 0xAE#8
  | .ldxAbsy _ => 0xBE#8
  | .ldyImm _ => 0xA0#8
  | .ldyZp _ => 0xA4#8
  | .ldyZpx _ => 0xB4#8
  | .ldyAbs _ => 0xAC#8
  | .ldyAbsx _ => 0xBC#8
  | .staZp _ => 0x85#8
  | .staZpx _ => 0x95#8
  | .staAbs _ => 0x8D#8
  | .staAbsx _ => 0x9D#8
  | .staAbsy _ => 0x99#8
  | .staIndx _ => 0x81#8
  | .staIndy _ => 0x91#8
  | .stxZp _ => 0x86#8
  | .stxZpy _ => 0x96#8
  | .stxAbs _ => 0x8E#8
  | .styZp _ => 0x84#8
  | .styZpx _ => 0x94#8
  | .styAbs _ => 0x8C#8
  | .tax => 0xAA#8
  | .tay => 0xA8#8
  | .txa => 0x8A#8
  | .tya => 0x98#8
  | .tsx => 0xBA#8
  | .txs => 0x9A#8
  | .clc => 0x18#8
  | .sec => 0x38#8
  | .cli => 0x58#8
  | .sei => 0x78#8
  | .cld => 0xD8#8
  | .sed => 0xF8#8
  | .clv => 0xB8#8
  | .nop => 0xEA#8

/-- The operand bytes of an addressing, in memory order (30_encoding.md R111): none, one, or the low byte then the high
byte. -/
def Addressing.operandBytes : Addressing → List Byte
  | .imp | .acc => []
  | .imm b | .zp b | .zpx b | .zpy b | .indx b | .indy b | .rel b => [b]
  | .abs w | .absx w | .absy w | .ind w => [lowByte w, highByte w]

/-- The bytes of an instruction: the opcode, then the operand bytes (30_encoding.md R110). -/
def encode (i : Instr) : List Byte := i.opcode :: i.addressing.operandBytes

end Sys2Proof
end

