-- ==== Sys2Proof/Machine/State.lean ====
section
/-! DEFINITION. The state of the core, as plain data: the tuple `(A, X, Y, SP, PC, P, Mem, running, halt)` of 10_state.md,
and the host's stop schedule still to come. With it the state after reset and the reasons a step can stop. -/

namespace Sys2Proof.Machine

/-- The memory as a list of (address, byte) pairs: addresses strictly rising, no entry equal to what an unlisted address
reads as (`Memory.wf`, Machine/Ops.lean). A cell that is not listed reads as `Config.unlistedByte`. -/
abbrev Memory := List Host.Cell

/-- The seven stored bits of the status register P (10_state.md R45). Bit 5 "has no storage that any instruction can
change" (R46), so it is no field; `readP` puts it back as 1. -/
structure Flags where
  n : Bool
  v : Bool
  b : Bool
  d : Bool
  i : Bool
  z : Bool
  c : Bool
  deriving DecidableEq, Repr

/-- The halt report: the illegal opcode byte and its address (10_state.md R53). -/
structure HaltReport where
  opcode : Byte
  address : Addr
  deriving DecidableEq, Repr

/-- The whole state (10_state.md, R40 to R53). -/
structure State where
  /-- A, the accumulator (R40) -/
  a : Byte
  /-- X, an index register (R41) -/
  x : Byte
  /-- Y, an index register (R42) -/
  y : Byte
  /-- SP, the stack index into page 0x01 (R43) -/
  sp : Byte
  /-- PC; while an instruction executes, the address of its opcode (R44) -/
  pc : Addr
  /-- P, its seven stored bits (R45, R46) -/
  p : Flags
  /-- Mem, 65,536 bytes (R51) -/
  mem : Memory
  /-- the lifecycle flag (R52) -/
  running : Bool
  /-- the halt report, initially absent (R53) -/
  halt : Option HaltReport
  /-- The model's own field (notes/assumptions/2.md): the host's stop schedule still to come, one entry for each
  instruction boundary from here; `true` says that the stop request takes effect at that boundary, and a boundary past
  the end has none (40_execution_cycle.md R148; 92_eei_decisions.md, "stop schedule"). -/
  hostStops : List Bool
  deriving DecidableEq, Repr

/-- Why a step has no next state. Both are about a core that no longer runs: "A state with `running = false` has no
instruction step" (40_execution_cycle.md R140). -/
inductive Fault where
  /-- Raised by `step` on a core that has halted on an illegal opcode: the fault outcome of the run's end, with the halt
  report (40_execution_cycle.md R151; 60_exceptions.md R350). Safe: the spec's core has no step there either. -/
  | invalidOpcode (opcode : Byte) (address : Addr)
  /-- Raised by `step` on a core that the host's stop request has stopped: the stuck end of the run
  (40_execution_cycle.md R151). Safe: the spec's core has no step there either. -/
  | stopped
  deriving DecidableEq, Repr

/-- Why an instruction has no meaning in the model. No arm of `exec` uses it: every instruction has its meaning. -/
inductive Refusal where
  /-- Would be raised by `exec` for an instruction without a meaning, by its mnemonic. Safe. -/
  | notModelled (mnemonic : String)
  deriving DecidableEq, Repr

/-- What an instruction, or a step, answers. -/
abbrev Result := Host.Outcome State Fault Refusal

/-- The stored flags at power-on: all 0 (70_reset_and_hazards.md R381). -/
def Flags.powerOn : Flags :=
  { n := false, v := false, b := false, d := false, i := false, z := false, c := false }

/-- The state after power-on with nothing seeded and nothing loaded: registers and flags zeroed (70_reset_and_hazards.md
R380, R381), PC 0x0000 (R383), running with no halt report (R384), no memory byte listed (log 1), no stop request (log
2). -/
def State.reset : State :=
  { a := Config.powerOnByte
    x := Config.powerOnByte
    y := Config.powerOnByte
    sp := Config.powerOnByte
    pc := Config.powerOnPc
    p := Flags.powerOn
    mem := []
    running := true
    halt := none
    hostStops := [] }

end Sys2Proof.Machine
end

