-- ==== Sys2Proof/Machine/Flags.lean ====
section
/-! DEFINITION. The `flag_register` (10_state.md R45 to R49) and the pure `alu_6502` (00_scope.md R16): every flag and
every 8-bit result the spec computes. -/

namespace Sys2Proof.Machine

/-! ### The status register -/

/-- The names of the seven stored flags (00_scope.md R13). -/
inductive FlagName where
  | C | Z | I | D | B | V | N
  deriving DecidableEq, Repr

/-- `getFlag(f)` reads only bit f (10_state.md R49). -/
def getFlag (f : FlagName) (p : Flags) : Bool :=
  match f with
  | .C => p.c
  | .Z => p.z
  | .I => p.i
  | .D => p.d
  | .B => p.b
  | .V => p.v
  | .N => p.n

/-- `setFlag(f, b)` changes only bit f (10_state.md R49). -/
def setFlag (f : FlagName) (b : Bool) (p : Flags) : Flags :=
  match f with
  | .C => { p with c := b }
  | .Z => { p with z := b }
  | .I => { p with i := b }
  | .D => { p with d := b }
  | .B => { p with b := b }
  | .V => { p with v := b }
  | .N => { p with n := b }

/-- `ReadP()`: `N<<7 | V<<6 | 1<<5 | B<<4 | D<<3 | I<<2 | Z<<1 | C` (10_state.md R47). -/
def readP (p : Flags) : Byte :=
  bitByte p.n <<< 7 ||| bitByte p.v <<< 6 ||| 1#8 <<< 5 ||| bitByte p.b <<< 4 ||| bitByte p.d <<< 3 |||
    bitByte p.i <<< 2 ||| bitByte p.z <<< 1 ||| bitByte p.c

/-- `WriteP(v)`: bits 7, 6, 4, 3, 2, 1, 0 are loaded, bit 5 is ignored (10_state.md R48). -/
def writeP (v : Byte) : Flags :=
  { n := v.getLsbD 7
    v := v.getLsbD 6
    b := v.getLsbD 4
    d := v.getLsbD 3
    i := v.getLsbD 2
    z := v.getLsbD 1
    c := v.getLsbD 0 }

/-- The byte PHP and BRK push: `ReadP() | 0x10` (45_stack_subroutine.md R281, R286). -/
def pushedP (p : Flags) : Byte := readP p ||| 0x10#8

/-- `SetNZ(v)`: Z says the byte is 0, N is its bit 7 (00_scope.md R11). -/
def setNZ (v : Byte) (p : Flags) : Flags := setFlag .N v.msb (setFlag .Z (v == 0#8) p)

/-! ### The adder and the comparator -/

/-- A result byte with carry and overflow. -/
structure Sum where
  result : Byte
  carry : Bool
  overflow : Bool
  deriving DecidableEq, Repr

/-- `Add8(a, m, cin)` (42_arithmetic.md R191): the exact sum, its low 8 bits, the carry `sum > 255`, and overflow when both
operands share a sign bit that the result does not have. -/
def add8 (a m : Byte) (cin : Bool) : Sum :=
  let sum := a.toNat + m.toNat + cin.toNat
  let r := BitVec.ofNat 8 sum
  { result := r, carry := decide (sum > 255), overflow := (a.msb == m.msb) && (r.msb != a.msb) }

/-- `Cmp8(reg, m)` (42_arithmetic.md R194): C says reg is at least m, unsigned; Z equality; N bit 7 of the difference; V is
not written. -/
def cmp8 (reg m : Byte) (p : Flags) : Flags :=
  setFlag .N (reg - m).msb (setFlag .Z (reg == m) (setFlag .C (decide (m.toNat ≤ reg.toNat)) p))

/-! ### The shifter -/

/-- A shifted byte and the bit shifted off. -/
structure Shifted where
  result : Byte
  carry : Bool
  deriving DecidableEq, Repr

/-- ASL: left by one, bit 7 shifted off (43_shift_logic.md R231). -/
def asl8 (v : Byte) : Shifted := { result := v <<< 1, carry := v.getLsbD 7 }

/-- LSR: right by one, bit 0 shifted off (43_shift_logic.md R232). -/
def lsr8 (v : Byte) : Shifted := { result := v >>> 1, carry := v.getLsbD 0 }

/-- ROL: left by one, the prior carry fed in as bit 0 (43_shift_logic.md R233). -/
def rol8 (v : Byte) (cin : Bool) : Shifted := { result := v <<< 1 ||| bitByte cin, carry := v.getLsbD 7 }

/-- ROR: right by one, the prior carry fed in as bit 7 (43_shift_logic.md R234). -/
def ror8 (v : Byte) (cin : Bool) : Shifted := { result := v >>> 1 ||| bitByte cin <<< 7, carry := v.getLsbD 0 }

/-- The flags of BIT: Z from `A & M`, N and V from bits 7 and 6 of the operand (43_shift_logic.md R238). -/
def bitTest (a m : Byte) (p : Flags) : Flags :=
  setFlag .V (m.getLsbD 6) (setFlag .N (m.getLsbD 7) (setFlag .Z (a &&& m == 0#8) p))

end Sys2Proof.Machine
end

