-- ==== Sys2Proof/Machine/Ops.lean ====
section
/-! DEFINITION. The named operations over memory and registers: memory in its canonical form (20_memory.md R80, R81), the
register accessors (00_scope.md R12), the stack primitives (R85, R86), the PC (40_execution_cycle.md R146), entering BRK
and returning from it, the halt on an illegal opcode, and the host's stop. -/

namespace Sys2Proof.Machine

/-! ### Memory -/

/-- The canonical form: addresses strictly rising and inside the 65,536 bytes, no entry equal to what an unlisted address
reads as. -/
abbrev Memory.wf (m : Memory) : Prop :=
  m.Pairwise (fun c d => c.1 < d.1) ∧ ∀ c ∈ m, c.1 < Config.memorySize ∧ c.2 ≠ Config.unlistedByte

/-- The byte at an address. -/
def Memory.read : Memory → Nat → Byte
  | [], _ => Config.unlistedByte
  | c :: t, k => if c.1 = k then c.2 else Memory.read t k

/-- The memory without any entry at an address. -/
def Memory.erase (m : Memory) (k : Nat) : Memory := m.filter (fun c => c.1 != k)

/-- The memory with an entry put before the first greater address. -/
def Memory.insert : Memory → Nat → Byte → Memory
  | [], k, v => [(k, v)]
  | c :: t, k, v => if k < c.1 then (k, v) :: c :: t else c :: Memory.insert t k v

/-- The memory with one byte stored; storing what an unlisted address reads as removes the entry. -/
def Memory.write (m : Memory) (k : Nat) (v : Byte) : Memory :=
  if v = Config.unlistedByte then Memory.erase m k else Memory.insert (Memory.erase m k) k v

/-- `MemRead(addr, 1)`: the byte, with no effect on any state (20_memory.md R80). -/
def State.read (s : State) (addr : Addr) : Byte := Memory.read s.mem addr.toNat

/-- `MemWrite(addr, 1, v)`: sets `Mem[addr]` and changes nothing else (20_memory.md R81). -/
def State.write (s : State) (addr : Addr) (v : Byte) : State :=
  { s with mem := Memory.write s.mem addr.toNat v }

/-! ### Registers -/

/-- `A <- v` (00_scope.md R12). -/
def State.setA (s : State) (v : Byte) : State := { s with a := v }

/-- `X <- v`. -/
def State.setX (s : State) (v : Byte) : State := { s with x := v }

/-- `Y <- v`. -/
def State.setY (s : State) (v : Byte) : State := { s with y := v }

/-- `SP <- v`. -/
def State.setSp (s : State) (v : Byte) : State := { s with sp := v }

/-- `PC <- target` (00_scope.md R11). -/
def State.setPc (s : State) (t : Addr) : State := { s with pc := t }

/-- The status register replaced by the flags computed from it. -/
def State.setP (s : State) (p : Flags) : State := { s with p := p }

/-- `SetNZ(v)` on the state's status register (00_scope.md R11). -/
def State.setNZ (s : State) (v : Byte) : State := s.setP (Machine.setNZ v s.p)

/-- The length advance `PC <- PC +16 length`, modulo 65,536 (40_execution_cycle.md R146). -/
def State.advance (s : State) (length : Nat) : State := s.setPc (s.pc + BitVec.ofNat 16 length)

/-! ### The stack -/

/-- The stack slot `0x0100 + SP` (10_state.md R43). -/
def State.stackSlot (s : State) : Addr := 0x0100#16 + zext16 s.sp

/-- `Push(v)`: write at the stack slot, then `SP - 1`, wrapping in page 1 (20_memory.md R85). -/
def State.push (s : State) (v : Byte) : State := (s.write s.stackSlot v).setSp (s.sp - 1#8)

/-- The state after `Pull()`: `SP + 1`, wrapping in page 1 (20_memory.md R86). -/
def State.afterPull (s : State) : State := s.setSp (s.sp + 1#8)

/-- The byte `Pull()` returns: the one at the new stack slot (20_memory.md R86). -/
def State.pulled (s : State) : Byte := s.afterPull.read s.afterPull.stackSlot

/-- A word pushed high byte first (45_stack_subroutine.md R284, R286). -/
def State.pushWord (s : State) (w : Addr) : State := (s.push (highByte w)).push (lowByte w)

/-- The word two pulls return, low byte first (45_stack_subroutine.md R285, R287). -/
def State.pulledWord (s : State) : Addr := hiLo s.afterPull.pulled s.pulled

/-! ### The software trap and its return -/

/-- Where the low byte of the BRK vector is (20_memory.md R89). -/
def brkVectorLow : Addr := 0xFFFE#16

/-- Where the high byte of the BRK vector is (20_memory.md R89). -/
def brkVectorHigh : Addr := 0xFFFF#16

/-- The return address JSR and BRK push, `PC +16 2` (45_stack_subroutine.md R284, R286). -/
def State.returnAddress (s : State) : Addr := s.pc + 2#16

/-- Taking the software trap BRK (45_stack_subroutine.md R286; 60_exceptions.md R355): push the return address and the
status byte with bits 4 and 5 set, set B and I, load PC from the vector. D is not changed. -/
def State.takeBreak (s : State) : State :=
  let pushed := (s.pushWord s.returnAddress).push (pushedP s.p)
  let trapped := pushed.setP (setFlag .I true (setFlag .B true pushed.p))
  trapped.setPc (hiLo (trapped.read brkVectorHigh) (trapped.read brkVectorLow))

/-- The return from BRK, RTI (45_stack_subroutine.md R287): pull P, then the low and the high byte of PC, with no +1. -/
def State.returnFromBreak (s : State) : State :=
  let restored := s.afterPull.setP (writeP s.pulled)
  restored.afterPull.afterPull.setPc restored.pulledWord

/-! ### The end of a run -/

/-- `raise InvalidOpcode(op, PC)`: `running <- false`, `halt <- (op, PC)`, nothing else (40_execution_cycle.md R143). -/
def State.raiseInvalidOpcode (s : State) (op : Byte) : State :=
  { s with running := false, halt := some { opcode := op, address := s.pc } }

/-- The host's stop request takes effect: `running <- false`, nothing else (40_execution_cycle.md R148). -/
def State.honourStop (s : State) : State := { s with running := false }

/-- Does the host's stop request take effect at this instruction boundary (40_execution_cycle.md R148)? -/
def State.stopDue (s : State) : Bool := s.hostStops.headD false

/-- The boundary is behind: the schedule's entry for it is used up (notes/assumptions/2.md). -/
def State.passBoundary (s : State) : State := { s with hostStops := s.hostStops.tail }

/-! ### Bytes in memory one after the other -/

/-- Bytes stored at consecutive addresses, modulo 65,536: what a loader does (70_reset_and_hazards.md R382). -/
def State.storeBytes (s : State) (addr : Addr) : List Byte → State
  | [] => s
  | v :: vs => (s.write addr v).storeBytes (addr + 1#16) vs

end Sys2Proof.Machine
end

