-- ==== Sys2Proof/Machine/Operands.lean ====
section
/-! DEFINITION. The `addressing_mode_resolver` (41_addressing_modes.md): the effective addresses and control-transfer
targets of the thirteen modes, all pure reads of the state as it is before any write of the instruction
(40_execution_cycle.md R144). -/

namespace Sys2Proof.Machine

/-- A little-endian pair read from a zero-page slot and the next one, both in page 0 (41_addressing_modes.md R168, R169). -/
def State.zeroPagePair (s : State) (slot : Byte) : Addr :=
  hiLo (s.read (zext16 (slot + 1#8))) (s.read (zext16 slot))

/-- Zero Page (41_addressing_modes.md R162). -/
def eaZp (z : Byte) : Addr := zext16 z

/-- Zero Page,X: the index wraps within page 0 (41_addressing_modes.md R163). -/
def eaZpx (z : Byte) (s : State) : Addr := zext16 (z + s.x)

/-- Zero Page,Y (41_addressing_modes.md R164). -/
def eaZpy (z : Byte) (s : State) : Addr := zext16 (z + s.y)

/-- Absolute (41_addressing_modes.md R165). -/
def eaAbs (w : Addr) : Addr := w

/-- Absolute,X, modulo 65,536 (41_addressing_modes.md R166). -/
def eaAbsx (w : Addr) (s : State) : Addr := w + zext16 s.x

/-- Absolute,Y, modulo 65,536 (41_addressing_modes.md R167). -/
def eaAbsy (w : Addr) (s : State) : Addr := w + zext16 s.y

/-- Indirect,X: the pair at slot `b1 +8 X` (41_addressing_modes.md R168). -/
def eaIndx (z : Byte) (s : State) : Addr := s.zeroPagePair (z + s.x)

/-- Indirect,Y: the pair at slot `b1`, plus Y modulo 65,536 (41_addressing_modes.md R169). -/
def eaIndy (z : Byte) (s : State) : Addr := s.zeroPagePair z + zext16 s.y

/-- Relative: the offset is added to the low byte of the branch's own PC, the high byte is kept (41_addressing_modes.md
R170). -/
def targetRel (r : Byte) (s : State) : Addr := hiLo (highByte s.pc) (lowByte s.pc + r)

/-- Indirect JMP: the high byte comes from the next address within the pointer's page (41_addressing_modes.md R172). -/
def targetInd (ptr : Addr) (s : State) : Addr :=
  hiLo (s.read (hiLo (highByte ptr) (lowByte ptr + 1#8))) (s.read ptr)

/-- The resolver's result (00_scope.md R15). -/
inductive Operand where
  | none
  | acc
  | value (v : Byte)
  | addr (ea : Addr)
  | target (t : Addr)
  deriving DecidableEq, Repr

/-- The mnemonics for which Absolute is a control-transfer target (41_addressing_modes.md R165). -/
def isJump (m : Mnemonic) : Bool := m == .JMP || m == .JSR

/-- `Resolve(mode)` for an instruction's mnemonic and addressing (00_scope.md R15; 41_addressing_modes.md R161 to R173). -/
def resolve (m : Mnemonic) (d : Addressing) (s : State) : Operand :=
  match d with
  | .imp => .none
  | .acc => .acc
  | .imm v => .value v
  | .zp z => .addr (eaZp z)
  | .zpx z => .addr (eaZpx z s)
  | .zpy z => .addr (eaZpy z s)
  | .abs w => if isJump m then .target w else .addr (eaAbs w)
  | .absx w => .addr (eaAbsx w s)
  | .absy w => .addr (eaAbsy w s)
  | .indx z => .addr (eaIndx z s)
  | .indy z => .addr (eaIndy z s)
  | .ind w => .target (targetInd w s)
  | .rel r => .target (targetRel r s)

/-- The operand of an instruction at a state. -/
def operandOf (i : Instr) (s : State) : Operand := resolve i.mnemonic i.addressing s

/-- `Load(opnd)` (41_addressing_modes.md R176); `none` for the operands it never occurs with. -/
def Operand.load (o : Operand) (s : State) : Option Byte :=
  match o with
  | .value v => some v
  | .addr ea => some (s.read ea)
  | .acc => some s.a
  | .none | .target _ => Option.none

/-- `Store(opnd, v)` (41_addressing_modes.md R176); `none` for the operands it never occurs with. -/
def Operand.store (o : Operand) (v : Byte) (s : State) : Option State :=
  match o with
  | .addr ea => some (s.write ea v)
  | .acc => some (s.setA v)
  | .value _ | .none | .target _ => Option.none

end Sys2Proof.Machine
end

