-- ==== Sys2Proof/Machine/Arithmetic.lean ====
section
/-! DEFINITION. Arithmetic, compare, increment and decrement (42_arithmetic.md). Each meaning is one line over a shared
operation; `length` is the byte length of the form (R146). -/

namespace Sys2Proof.Machine

/-- ADC (42_arithmetic.md R192): `A <- A + M + C`; writes C, V, Z, N. Binary whatever D holds (R190). -/
def adc (m : Byte) (length : Nat) (s : State) : State :=
  let sum := add8 s.a m s.p.c
  (((s.setA sum.result).setP (setFlag .V sum.overflow (setFlag .C sum.carry s.p))).setNZ sum.result).advance length

/-- ADC Immediate, opcode 0x69. -/
def execAdcImm (v : Byte) (s : State) : Result := .next (adc v 2 s)

/-- ADC Zero Page, opcode 0x65. -/
def execAdcZp (z : Byte) (s : State) : Result := .next (adc (s.read (eaZp z)) 2 s)

/-- ADC Zero Page,X, opcode 0x75. -/
def execAdcZpx (z : Byte) (s : State) : Result := .next (adc (s.read (eaZpx z s)) 2 s)

/-- ADC Absolute, opcode 0x6D. -/
def execAdcAbs (w : Addr) (s : State) : Result := .next (adc (s.read (eaAbs w)) 3 s)

/-- ADC Absolute,X, opcode 0x7D. -/
def execAdcAbsx (w : Addr) (s : State) : Result := .next (adc (s.read (eaAbsx w s)) 3 s)

/-- ADC Absolute,Y, opcode 0x79. -/
def execAdcAbsy (w : Addr) (s : State) : Result := .next (adc (s.read (eaAbsy w s)) 3 s)

/-- ADC Indirect,X, opcode 0x61. -/
def execAdcIndx (z : Byte) (s : State) : Result := .next (adc (s.read (eaIndx z s)) 2 s)

/-- ADC Indirect,Y, opcode 0x71. -/
def execAdcIndy (z : Byte) (s : State) : Result := .next (adc (s.read (eaIndy z s)) 2 s)

/-- SBC (42_arithmetic.md R193): ADC with the operand's one's complement; writes C, V, Z, N. -/
def sbc (m : Byte) (length : Nat) (s : State) : State :=
  let sum := add8 s.a (~~~m) s.p.c
  (((s.setA sum.result).setP (setFlag .V sum.overflow (setFlag .C sum.carry s.p))).setNZ sum.result).advance length

/-- SBC Immediate, opcode 0xE9. -/
def execSbcImm (v : Byte) (s : State) : Result := .next (sbc v 2 s)

/-- SBC Zero Page, opcode 0xE5. -/
def execSbcZp (z : Byte) (s : State) : Result := .next (sbc (s.read (eaZp z)) 2 s)

/-- SBC Zero Page,X, opcode 0xF5. -/
def execSbcZpx (z : Byte) (s : State) : Result := .next (sbc (s.read (eaZpx z s)) 2 s)

/-- SBC Absolute, opcode 0xED. -/
def execSbcAbs (w : Addr) (s : State) : Result := .next (sbc (s.read (eaAbs w)) 3 s)

/-- SBC Absolute,X, opcode 0xFD. -/
def execSbcAbsx (w : Addr) (s : State) : Result := .next (sbc (s.read (eaAbsx w s)) 3 s)

/-- SBC Absolute,Y, opcode 0xF9. -/
def execSbcAbsy (w : Addr) (s : State) : Result := .next (sbc (s.read (eaAbsy w s)) 3 s)

/-- SBC Indirect,X, opcode 0xE1. -/
def execSbcIndx (z : Byte) (s : State) : Result := .next (sbc (s.read (eaIndx z s)) 2 s)

/-- SBC Indirect,Y, opcode 0xF1. -/
def execSbcIndy (z : Byte) (s : State) : Result := .next (sbc (s.read (eaIndy z s)) 2 s)

/-- CMP (42_arithmetic.md R195): writes C, Z, N from `A - M`; A is not changed. -/
def cmp (m : Byte) (length : Nat) (s : State) : State := (s.setP (cmp8 s.a m s.p)).advance length

/-- CMP Immediate, opcode 0xC9. -/
def execCmpImm (v : Byte) (s : State) : Result := .next (cmp v 2 s)

/-- CMP Zero Page, opcode 0xC5. -/
def execCmpZp (z : Byte) (s : State) : Result := .next (cmp (s.read (eaZp z)) 2 s)

/-- CMP Zero Page,X, opcode 0xD5. -/
def execCmpZpx (z : Byte) (s : State) : Result := .next (cmp (s.read (eaZpx z s)) 2 s)

/-- CMP Absolute, opcode 0xCD. -/
def execCmpAbs (w : Addr) (s : State) : Result := .next (cmp (s.read (eaAbs w)) 3 s)

/-- CMP Absolute,X, opcode 0xDD. -/
def execCmpAbsx (w : Addr) (s : State) : Result := .next (cmp (s.read (eaAbsx w s)) 3 s)

/-- CMP Absolute,Y, opcode 0xD9. -/
def execCmpAbsy (w : Addr) (s : State) : Result := .next (cmp (s.read (eaAbsy w s)) 3 s)

/-- CMP Indirect,X, opcode 0xC1. -/
def execCmpIndx (z : Byte) (s : State) : Result := .next (cmp (s.read (eaIndx z s)) 2 s)

/-- CMP Indirect,Y, opcode 0xD1. -/
def execCmpIndy (z : Byte) (s : State) : Result := .next (cmp (s.read (eaIndy z s)) 2 s)

/-- CPX (42_arithmetic.md R196). -/
def cpx (m : Byte) (length : Nat) (s : State) : State := (s.setP (cmp8 s.x m s.p)).advance length

/-- CPX Immediate, opcode 0xE0. -/
def execCpxImm (v : Byte) (s : State) : Result := .next (cpx v 2 s)

/-- CPX Zero Page, opcode 0xE4. -/
def execCpxZp (z : Byte) (s : State) : Result := .next (cpx (s.read (eaZp z)) 2 s)

/-- CPX Absolute, opcode 0xEC. -/
def execCpxAbs (w : Addr) (s : State) : Result := .next (cpx (s.read (eaAbs w)) 3 s)

/-- CPY (42_arithmetic.md R197). -/
def cpy (m : Byte) (length : Nat) (s : State) : State := (s.setP (cmp8 s.y m s.p)).advance length

/-- CPY Immediate, opcode 0xC0. -/
def execCpyImm (v : Byte) (s : State) : Result := .next (cpy v 2 s)

/-- CPY Zero Page, opcode 0xC4. -/
def execCpyZp (z : Byte) (s : State) : Result := .next (cpy (s.read (eaZp z)) 2 s)

/-- CPY Absolute, opcode 0xCC. -/
def execCpyAbs (w : Addr) (s : State) : Result := .next (cpy (s.read (eaAbs w)) 3 s)

/-- INC (42_arithmetic.md R198): one read and one write of `ea`; writes Z, N. -/
def inc (ea : Addr) (length : Nat) (s : State) : State :=
  let r := s.read ea + 1#8
  ((s.write ea r).setNZ r).advance length

/-- INC Zero Page, opcode 0xE6. -/
def execIncZp (z : Byte) (s : State) : Result := .next (inc (eaZp z) 2 s)

/-- INC Zero Page,X, opcode 0xF6. -/
def execIncZpx (z : Byte) (s : State) : Result := .next (inc (eaZpx z s) 2 s)

/-- INC Absolute, opcode 0xEE. -/
def execIncAbs (w : Addr) (s : State) : Result := .next (inc (eaAbs w) 3 s)

/-- INC Absolute,X, opcode 0xFE. -/
def execIncAbsx (w : Addr) (s : State) : Result := .next (inc (eaAbsx w s) 3 s)

/-- DEC (42_arithmetic.md R199): one read and one write of `ea`; writes Z, N. -/
def dec (ea : Addr) (length : Nat) (s : State) : State :=
  let r := s.read ea - 1#8
  ((s.write ea r).setNZ r).advance length

/-- DEC Zero Page, opcode 0xC6. -/
def execDecZp (z : Byte) (s : State) : Result := .next (dec (eaZp z) 2 s)

/-- DEC Zero Page,X, opcode 0xD6. -/
def execDecZpx (z : Byte) (s : State) : Result := .next (dec (eaZpx z s) 2 s)

/-- DEC Absolute, opcode 0xCE. -/
def execDecAbs (w : Addr) (s : State) : Result := .next (dec (eaAbs w) 3 s)

/-- DEC Absolute,X, opcode 0xDE. -/
def execDecAbsx (w : Addr) (s : State) : Result := .next (dec (eaAbsx w s) 3 s)

/-- INX (42_arithmetic.md R200). -/
def execInx (s : State) : Result := .next (((s.setX (s.x + 1#8)).setNZ (s.x + 1#8)).advance 1)

/-- INY (42_arithmetic.md R201). -/
def execIny (s : State) : Result := .next (((s.setY (s.y + 1#8)).setNZ (s.y + 1#8)).advance 1)

/-- DEX (42_arithmetic.md R202). -/
def execDex (s : State) : Result := .next (((s.setX (s.x - 1#8)).setNZ (s.x - 1#8)).advance 1)

/-- DEY (42_arithmetic.md R203). -/
def execDey (s : State) : Result := .next (((s.setY (s.y - 1#8)).setNZ (s.y - 1#8)).advance 1)

end Sys2Proof.Machine
end

