-- ==== Sys2Proof/Machine/BranchJump.lean ====
section
/-! DEFINITION. Branches and jumps (44_branch_jump.md). No flag is written. -/

namespace Sys2Proof.Machine

/-- The common branch rule (44_branch_jump.md R260): PC is the relative target when taken, else the next instruction. -/
def branch (taken : Bool) (r : Byte) (s : State) : State :=
  if taken then s.setPc (targetRel r s) else s.advance 2

/-- BCC (44_branch_jump.md R261): taken when C is 0. -/
def execBccRel (r : Byte) (s : State) : Result := .next (branch (!s.p.c) r s)

/-- BCS (44_branch_jump.md R262): taken when C is 1. -/
def execBcsRel (r : Byte) (s : State) : Result := .next (branch (s.p.c) r s)

/-- BEQ (44_branch_jump.md R263): taken when Z is 1. -/
def execBeqRel (r : Byte) (s : State) : Result := .next (branch (s.p.z) r s)

/-- BNE (44_branch_jump.md R264): taken when Z is 0. -/
def execBneRel (r : Byte) (s : State) : Result := .next (branch (!s.p.z) r s)

/-- BMI (44_branch_jump.md R265): taken when N is 1. -/
def execBmiRel (r : Byte) (s : State) : Result := .next (branch (s.p.n) r s)

/-- BPL (44_branch_jump.md R266): taken when N is 0. -/
def execBplRel (r : Byte) (s : State) : Result := .next (branch (!s.p.n) r s)

/-- BVC (44_branch_jump.md R267): taken when V is 0. -/
def execBvcRel (r : Byte) (s : State) : Result := .next (branch (!s.p.v) r s)

/-- BVS (44_branch_jump.md R268): taken when V is 1. -/
def execBvsRel (r : Byte) (s : State) : Result := .next (branch (s.p.v) r s)

/-- JMP absolute (44_branch_jump.md R269). -/
def execJmpAbs (w : Addr) (s : State) : Result := .next (s.setPc w)

/-- JMP indirect (44_branch_jump.md R270). -/
def execJmpInd (w : Addr) (s : State) : Result := .next (s.setPc (targetInd w s))

end Sys2Proof.Machine
end

