-- ==== Sys2Proof/Machine/FlagInstr.lean ====
section
/-! DEFINITION. Flag instructions and NOP (47_flags_misc.md). -/

namespace Sys2Proof.Machine

/-- CLC (47_flags_misc.md R330). -/
def execClc (s : State) : Result := .next ((s.setP (setFlag .C false s.p)).advance 1)

/-- SEC (47_flags_misc.md R331). -/
def execSec (s : State) : Result := .next ((s.setP (setFlag .C true s.p)).advance 1)

/-- CLI (47_flags_misc.md R332). -/
def execCli (s : State) : Result := .next ((s.setP (setFlag .I false s.p)).advance 1)

/-- SEI (47_flags_misc.md R333). -/
def execSei (s : State) : Result := .next ((s.setP (setFlag .I true s.p)).advance 1)

/-- CLD (47_flags_misc.md R334). -/
def execCld (s : State) : Result := .next ((s.setP (setFlag .D false s.p)).advance 1)

/-- SED (47_flags_misc.md R335). -/
def execSed (s : State) : Result := .next ((s.setP (setFlag .D true s.p)).advance 1)

/-- CLV (47_flags_misc.md R336). -/
def execClv (s : State) : Result := .next ((s.setP (setFlag .V false s.p)).advance 1)

/-- NOP (47_flags_misc.md R337): only the length advance. -/
def execNop (s : State) : Result := .next (s.advance 1)

end Sys2Proof.Machine
end

