-- ==== Sys2Proof/Machine/LoadStoreTransfer.lean ====
section
/-! DEFINITION. Loads, stores and register transfers (46_load_store_transfer.md). -/

namespace Sys2Proof.Machine

/-- LDA (46_load_store_transfer.md R300): writes A, Z, N. -/
def lda (m : Byte) (length : Nat) (s : State) : State := ((s.setA m).setNZ m).advance length

/-- LDA Immediate, opcode 0xA9. -/
def execLdaImm (v : Byte) (s : State) : Result := .next (lda v 2 s)

/-- LDA Zero Page, opcode 0xA5. -/
def execLdaZp (z : Byte) (s : State) : Result := .next (lda (s.read (eaZp z)) 2 s)

/-- LDA Zero Page,X, opcode 0xB5. -/
def execLdaZpx (z : Byte) (s : State) : Result := .next (lda (s.read (eaZpx z s)) 2 s)

/-- LDA Absolute, opcode 0xAD. -/
def execLdaAbs (w : Addr) (s : State) : Result := .next (lda (s.read (eaAbs w)) 3 s)

/-- LDA Absolute,X, opcode 0xBD. -/
def execLdaAbsx (w : Addr) (s : State) : Result := .next (lda (s.read (eaAbsx w s)) 3 s)

/-- LDA Absolute,Y, opcode 0xB9. -/
def execLdaAbsy (w : Addr) (s : State) : Result := .next (lda (s.read (eaAbsy w s)) 3 s)

/-- LDA Indirect,X, opcode 0xA1. -/
def execLdaIndx (z : Byte) (s : State) : Result := .next (lda (s.read (eaIndx z s)) 2 s)

/-- LDA Indirect,Y, opcode 0xB1. -/
def execLdaIndy (z : Byte) (s : State) : Result := .next (lda (s.read (eaIndy z s)) 2 s)

/-- LDX (46_load_store_transfer.md R301): writes X, Z, N. -/
def ldx (m : Byte) (length : Nat) (s : State) : State := ((s.setX m).setNZ m).advance length

/-- LDX Immediate, opcode 0xA2. -/
def execLdxImm (v : Byte) (s : State) : Result := .next (ldx v 2 s)

/-- LDX Zero Page, opcode 0xA6. -/
def execLdxZp (z : Byte) (s : State) : Result := .next (ldx (s.read (eaZp z)) 2 s)

/-- LDX Zero Page,Y, opcode 0xB6. -/
def execLdxZpy (z : Byte) (s : State) : Result := .next (ldx (s.read (eaZpy z s)) 2 s)

/-- LDX Absolute, opcode 0xAE. -/
def execLdxAbs (w : Addr) (s : State) : Result := .next (ldx (s.read (eaAbs w)) 3 s)

/-- LDX Absolute,Y, opcode 0xBE. -/
def execLdxAbsy (w : Addr) (s : State) : Result := .next (ldx (s.read (eaAbsy w s)) 3 s)

/-- LDY (46_load_store_transfer.md R302): writes Y, Z, N. -/
def ldy (m : Byte) (length : Nat) (s : State) : State := ((s.setY m).setNZ m).advance length

/-- LDY Immediate, opcode 0xA0. -/
def execLdyImm (v : Byte) (s : State) : Result := .next (ldy v 2 s)

/-- LDY Zero Page, opcode 0xA4. -/
def execLdyZp (z : Byte) (s : State) : Result := .next (ldy (s.read (eaZp z)) 2 s)

/-- LDY Zero Page,X, opcode 0xB4. -/
def execLdyZpx (z : Byte) (s : State) : Result := .next (ldy (s.read (eaZpx z s)) 2 s)

/-- LDY Absolute, opcode 0xAC. -/
def execLdyAbs (w : Addr) (s : State) : Result := .next (ldy (s.read (eaAbs w)) 3 s)

/-- LDY Absolute,X, opcode 0xBC. -/
def execLdyAbsx (w : Addr) (s : State) : Result := .next (ldy (s.read (eaAbsx w s)) 3 s)

/-- STA (46_load_store_transfer.md R303): no flag, no read of `ea`. -/
def sta (ea : Addr) (length : Nat) (s : State) : State := (s.write ea s.a).advance length

/-- STA Zero Page, opcode 0x85. -/
def execStaZp (z : Byte) (s : State) : Result := .next (sta (eaZp z) 2 s)

/-- STA Zero Page,X, opcode 0x95. -/
def execStaZpx (z : Byte) (s : State) : Result := .next (sta (eaZpx z s) 2 s)

/-- STA Absolute, opcode 0x8D. -/
def execStaAbs (w : Addr) (s : State) : Result := .next (sta (eaAbs w) 3 s)

/-- STA Absolute,X, opcode 0x9D. -/
def execStaAbsx (w : Addr) (s : State) : Result := .next (sta (eaAbsx w s) 3 s)

/-- STA Absolute,Y, opcode 0x99. -/
def execStaAbsy (w : Addr) (s : State) : Result := .next (sta (eaAbsy w s) 3 s)

/-- STA Indirect,X, opcode 0x81. -/
def execStaIndx (z : Byte) (s : State) : Result := .next (sta (eaIndx z s) 2 s)

/-- STA Indirect,Y, opcode 0x91. -/
def execStaIndy (z : Byte) (s : State) : Result := .next (sta (eaIndy z s) 2 s)

/-- STX (46_load_store_transfer.md R304). -/
def stx (ea : Addr) (length : Nat) (s : State) : State := (s.write ea s.x).advance length

/-- STX Zero Page, opcode 0x86. -/
def execStxZp (z : Byte) (s : State) : Result := .next (stx (eaZp z) 2 s)

/-- STX Zero Page,Y, opcode 0x96. -/
def execStxZpy (z : Byte) (s : State) : Result := .next (stx (eaZpy z s) 2 s)

/-- STX Absolute, opcode 0x8E. -/
def execStxAbs (w : Addr) (s : State) : Result := .next (stx (eaAbs w) 3 s)

/-- STY (46_load_store_transfer.md R305). -/
def sty (ea : Addr) (length : Nat) (s : State) : State := (s.write ea s.y).advance length

/-- STY Zero Page, opcode 0x84. -/
def execStyZp (z : Byte) (s : State) : Result := .next (sty (eaZp z) 2 s)

/-- STY Zero Page,X, opcode 0x94. -/
def execStyZpx (z : Byte) (s : State) : Result := .next (sty (eaZpx z s) 2 s)

/-- STY Absolute, opcode 0x8C. -/
def execStyAbs (w : Addr) (s : State) : Result := .next (sty (eaAbs w) 3 s)

/-- TAX (46_load_store_transfer.md R306). -/
def execTax (s : State) : Result := .next (((s.setX s.a).setNZ s.a).advance 1)

/-- TAY (46_load_store_transfer.md R307). -/
def execTay (s : State) : Result := .next (((s.setY s.a).setNZ s.a).advance 1)

/-- TXA (46_load_store_transfer.md R308). -/
def execTxa (s : State) : Result := .next (((s.setA s.x).setNZ s.x).advance 1)

/-- TYA (46_load_store_transfer.md R309). -/
def execTya (s : State) : Result := .next (((s.setA s.y).setNZ s.y).advance 1)

/-- TSX (46_load_store_transfer.md R310). -/
def execTsx (s : State) : Result := .next (((s.setX s.sp).setNZ s.sp).advance 1)

/-- TXS (46_load_store_transfer.md R311): writes no flag. -/
def execTxs (s : State) : Result := .next ((s.setSp s.x).advance 1)

end Sys2Proof.Machine
end

