-- ==== Sys2Proof/Machine/ShiftLogic.lean ====
section
/-! DEFINITION. Shifts, rotates and logic (43_shift_logic.md). -/

namespace Sys2Proof.Machine

/-- ASL of the accumulator (43_shift_logic.md R231: C is the bit shifted off); writes C, Z, N. -/
def aslA (s : State) : State :=
  let r := asl8 s.a
  (((s.setA r.result).setP (setFlag .C r.carry s.p)).setNZ r.result).advance 1

/-- ASL of a memory byte: one read, one write of `ea` (43_shift_logic.md R230, R231). -/
def aslM (ea : Addr) (length : Nat) (s : State) : State :=
  let r := asl8 (s.read ea)
  (((s.write ea r.result).setP (setFlag .C r.carry s.p)).setNZ r.result).advance length

/-- ASL Accumulator, opcode 0x0A. -/
def execAslAcc (s : State) : Result := .next (aslA s)

/-- ASL Zero Page, opcode 0x06. -/
def execAslZp (z : Byte) (s : State) : Result := .next (aslM (eaZp z) 2 s)

/-- ASL Zero Page,X, opcode 0x16. -/
def execAslZpx (z : Byte) (s : State) : Result := .next (aslM (eaZpx z s) 2 s)

/-- ASL Absolute, opcode 0x0E. -/
def execAslAbs (w : Addr) (s : State) : Result := .next (aslM (eaAbs w) 3 s)

/-- ASL Absolute,X, opcode 0x1E. -/
def execAslAbsx (w : Addr) (s : State) : Result := .next (aslM (eaAbsx w s) 3 s)

/-- LSR of the accumulator (43_shift_logic.md R232: N is always 0); writes C, Z, N. -/
def lsrA (s : State) : State :=
  let r := lsr8 s.a
  (((s.setA r.result).setP (setFlag .C r.carry s.p)).setNZ r.result).advance 1

/-- LSR of a memory byte: one read, one write of `ea` (43_shift_logic.md R230, R232). -/
def lsrM (ea : Addr) (length : Nat) (s : State) : State :=
  let r := lsr8 (s.read ea)
  (((s.write ea r.result).setP (setFlag .C r.carry s.p)).setNZ r.result).advance length

/-- LSR Accumulator, opcode 0x4A. -/
def execLsrAcc (s : State) : Result := .next (lsrA s)

/-- LSR Zero Page, opcode 0x46. -/
def execLsrZp (z : Byte) (s : State) : Result := .next (lsrM (eaZp z) 2 s)

/-- LSR Zero Page,X, opcode 0x56. -/
def execLsrZpx (z : Byte) (s : State) : Result := .next (lsrM (eaZpx z s) 2 s)

/-- LSR Absolute, opcode 0x4E. -/
def execLsrAbs (w : Addr) (s : State) : Result := .next (lsrM (eaAbs w) 3 s)

/-- LSR Absolute,X, opcode 0x5E. -/
def execLsrAbsx (w : Addr) (s : State) : Result := .next (lsrM (eaAbsx w s) 3 s)

/-- ROL of the accumulator (43_shift_logic.md R233); writes C, Z, N. -/
def rolA (s : State) : State :=
  let r := rol8 s.a s.p.c
  (((s.setA r.result).setP (setFlag .C r.carry s.p)).setNZ r.result).advance 1

/-- ROL of a memory byte: one read, one write of `ea` (43_shift_logic.md R230, R233). -/
def rolM (ea : Addr) (length : Nat) (s : State) : State :=
  let r := rol8 (s.read ea) s.p.c
  (((s.write ea r.result).setP (setFlag .C r.carry s.p)).setNZ r.result).advance length

/-- ROL Accumulator, opcode 0x2A. -/
def execRolAcc (s : State) : Result := .next (rolA s)

/-- ROL Zero Page, opcode 0x26. -/
def execRolZp (z : Byte) (s : State) : Result := .next (rolM (eaZp z) 2 s)

/-- ROL Zero Page,X, opcode 0x36. -/
def execRolZpx (z : Byte) (s : State) : Result := .next (rolM (eaZpx z s) 2 s)

/-- ROL Absolute, opcode 0x2E. -/
def execRolAbs (w : Addr) (s : State) : Result := .next (rolM (eaAbs w) 3 s)

/-- ROL Absolute,X, opcode 0x3E. -/
def execRolAbsx (w : Addr) (s : State) : Result := .next (rolM (eaAbsx w s) 3 s)

/-- ROR of the accumulator (43_shift_logic.md R234); writes C, Z, N. -/
def rorA (s : State) : State :=
  let r := ror8 s.a s.p.c
  (((s.setA r.result).setP (setFlag .C r.carry s.p)).setNZ r.result).advance 1

/-- ROR of a memory byte: one read, one write of `ea` (43_shift_logic.md R230, R234). -/
def rorM (ea : Addr) (length : Nat) (s : State) : State :=
  let r := ror8 (s.read ea) s.p.c
  (((s.write ea r.result).setP (setFlag .C r.carry s.p)).setNZ r.result).advance length

/-- ROR Accumulator, opcode 0x6A. -/
def execRorAcc (s : State) : Result := .next (rorA s)

/-- ROR Zero Page, opcode 0x66. -/
def execRorZp (z : Byte) (s : State) : Result := .next (rorM (eaZp z) 2 s)

/-- ROR Zero Page,X, opcode 0x76. -/
def execRorZpx (z : Byte) (s : State) : Result := .next (rorM (eaZpx z s) 2 s)

/-- ROR Absolute, opcode 0x6E. -/
def execRorAbs (w : Addr) (s : State) : Result := .next (rorM (eaAbs w) 3 s)

/-- ROR Absolute,X, opcode 0x7E. -/
def execRorAbsx (w : Addr) (s : State) : Result := .next (rorM (eaAbsx w s) 3 s)

/-- AND (43_shift_logic.md R235): `A <- A & M`; writes Z, N. -/
def andA (m : Byte) (length : Nat) (s : State) : State := ((s.setA (s.a &&& m)).setNZ (s.a &&& m)).advance length

/-- AND Immediate, opcode 0x29. -/
def execAndImm (v : Byte) (s : State) : Result := .next (andA v 2 s)

/-- AND Zero Page, opcode 0x25. -/
def execAndZp (z : Byte) (s : State) : Result := .next (andA (s.read (eaZp z)) 2 s)

/-- AND Zero Page,X, opcode 0x35. -/
def execAndZpx (z : Byte) (s : State) : Result := .next (andA (s.read (eaZpx z s)) 2 s)

/-- AND Absolute, opcode 0x2D. -/
def execAndAbs (w : Addr) (s : State) : Result := .next (andA (s.read (eaAbs w)) 3 s)

/-- AND Absolute,X, opcode 0x3D. -/
def execAndAbsx (w : Addr) (s : State) : Result := .next (andA (s.read (eaAbsx w s)) 3 s)

/-- AND Absolute,Y, opcode 0x39. -/
def execAndAbsy (w : Addr) (s : State) : Result := .next (andA (s.read (eaAbsy w s)) 3 s)

/-- AND Indirect,X, opcode 0x21. -/
def execAndIndx (z : Byte) (s : State) : Result := .next (andA (s.read (eaIndx z s)) 2 s)

/-- AND Indirect,Y, opcode 0x31. -/
def execAndIndy (z : Byte) (s : State) : Result := .next (andA (s.read (eaIndy z s)) 2 s)

/-- ORA (43_shift_logic.md R236): `A <- A | M`; writes Z, N. -/
def oraA (m : Byte) (length : Nat) (s : State) : State := ((s.setA (s.a ||| m)).setNZ (s.a ||| m)).advance length

/-- ORA Immediate, opcode 0x09. -/
def execOraImm (v : Byte) (s : State) : Result := .next (oraA v 2 s)

/-- ORA Zero Page, opcode 0x05. -/
def execOraZp (z : Byte) (s : State) : Result := .next (oraA (s.read (eaZp z)) 2 s)

/-- ORA Zero Page,X, opcode 0x15. -/
def execOraZpx (z : Byte) (s : State) : Result := .next (oraA (s.read (eaZpx z s)) 2 s)

/-- ORA Absolute, opcode 0x0D. -/
def execOraAbs (w : Addr) (s : State) : Result := .next (oraA (s.read (eaAbs w)) 3 s)

/-- ORA Absolute,X, opcode 0x1D. -/
def execOraAbsx (w : Addr) (s : State) : Result := .next (oraA (s.read (eaAbsx w s)) 3 s)

/-- ORA Absolute,Y, opcode 0x19. -/
def execOraAbsy (w : Addr) (s : State) : Result := .next (oraA (s.read (eaAbsy w s)) 3 s)

/-- ORA Indirect,X, opcode 0x01. -/
def execOraIndx (z : Byte) (s : State) : Result := .next (oraA (s.read (eaIndx z s)) 2 s)

/-- ORA Indirect,Y, opcode 0x11. -/
def execOraIndy (z : Byte) (s : State) : Result := .next (oraA (s.read (eaIndy z s)) 2 s)

/-- EOR (43_shift_logic.md R237): `A <- A ^ M`; writes Z, N. -/
def eorA (m : Byte) (length : Nat) (s : State) : State := ((s.setA (s.a ^^^ m)).setNZ (s.a ^^^ m)).advance length

/-- EOR Immediate, opcode 0x49. -/
def execEorImm (v : Byte) (s : State) : Result := .next (eorA v 2 s)

/-- EOR Zero Page, opcode 0x45. -/
def execEorZp (z : Byte) (s : State) : Result := .next (eorA (s.read (eaZp z)) 2 s)

/-- EOR Zero Page,X, opcode 0x55. -/
def execEorZpx (z : Byte) (s : State) : Result := .next (eorA (s.read (eaZpx z s)) 2 s)

/-- EOR Absolute, opcode 0x4D. -/
def execEorAbs (w : Addr) (s : State) : Result := .next (eorA (s.read (eaAbs w)) 3 s)

/-- EOR Absolute,X, opcode 0x5D. -/
def execEorAbsx (w : Addr) (s : State) : Result := .next (eorA (s.read (eaAbsx w s)) 3 s)

/-- EOR Absolute,Y, opcode 0x59. -/
def execEorAbsy (w : Addr) (s : State) : Result := .next (eorA (s.read (eaAbsy w s)) 3 s)

/-- EOR Indirect,X, opcode 0x41. -/
def execEorIndx (z : Byte) (s : State) : Result := .next (eorA (s.read (eaIndx z s)) 2 s)

/-- EOR Indirect,Y, opcode 0x51. -/
def execEorIndy (z : Byte) (s : State) : Result := .next (eorA (s.read (eaIndy z s)) 2 s)

/-- BIT (43_shift_logic.md R238): writes Z, N, V; A is not changed. -/
def bitA (m : Byte) (length : Nat) (s : State) : State := (s.setP (bitTest s.a m s.p)).advance length

/-- BIT Zero Page, opcode 0x24. -/
def execBitZp (z : Byte) (s : State) : Result := .next (bitA (s.read (eaZp z)) 2 s)

/-- BIT Absolute, opcode 0x2C. -/
def execBitAbs (w : Addr) (s : State) : Result := .next (bitA (s.read (eaAbs w)) 3 s)

end Sys2Proof.Machine
end

