-- ==== Sys2Proof/Machine/StackControl.lean ====
section
/-! DEFINITION. Stack, subroutine, BRK and RTI (45_stack_subroutine.md). BRK and RTI call the shared trap entry and return of
Machine/Ops.lean. -/

namespace Sys2Proof.Machine

/-- PHA (45_stack_subroutine.md R280). -/
def execPha (s : State) : Result := .next ((s.push s.a).advance 1)

/-- PHP (45_stack_subroutine.md R281): P is not changed. -/
def execPhp (s : State) : Result := .next ((s.push (pushedP s.p)).advance 1)

/-- PLA (45_stack_subroutine.md R282): writes A, Z, N. -/
def execPla (s : State) : Result := .next (((s.afterPull.setA s.pulled).setNZ s.pulled).advance 1)

/-- PLP (45_stack_subroutine.md R283): writes every stored flag. -/
def execPlp (s : State) : Result := .next ((s.afterPull.setP (writeP s.pulled)).advance 1)

/-- JSR (45_stack_subroutine.md R284): the target is the operand, fetched before any push; the pushed word is the address
of the instruction's last byte. -/
def execJsrAbs (w : Addr) (s : State) : Result := .next ((s.pushWord s.returnAddress).setPc w)

/-- RTS (45_stack_subroutine.md R285): PC is the pulled word plus 1. -/
def execRts (s : State) : Result := .next (s.afterPull.afterPull.setPc (s.pulledWord + 1#16))

/-- BRK (45_stack_subroutine.md R286): takes the software trap. -/
def execBrk (s : State) : Result := .next (s.takeBreak)

/-- RTI (45_stack_subroutine.md R287): returns from the trap. -/
def execRti (s : State) : Result := .next (s.returnFromBreak)

end Sys2Proof.Machine
end

