-- ==== Sys2Proof/Machine/Cycle.lean ====
section
/-! DEFINITION. The `fetch_decode_execute` cycle (40_execution_cycle.md): fetching the bytes at PC, running the decoded
instruction, the illegal opcode, the stop at a boundary and the end of a run. Machine/Step.lean only calls it. -/

namespace Sys2Proof.Machine

/-- The bytes at PC, PC +16 1 and PC +16 2 (40_execution_cycle.md R141). Three are always read: reading one the length does
not need "would be unobservable". -/
def State.fetchBytes (s : State) : List Byte := [s.read s.pc, s.read (s.pc + 1#16), s.read (s.pc + 2#16)]

/-- Fetch, decode, resolve and execute one instruction, or raise InvalidOpcode (40_execution_cycle.md R141 to R147). The
bytes in memory are never too few, so the last two cases do not occur; they raise InvalidOpcode too. -/
def runInstruction (s : State) : Result :=
  match decode s.fetchBytes with
  | .instr i _ => exec i s
  | .illegalOpcode op => .next (s.raiseInvalidOpcode op)
  | .truncated op => .next (s.raiseInvalidOpcode op)
  | .noOpcode => .next (s.raiseInvalidOpcode (s.read s.pc))

/-- The outcome of a core that no longer runs (40_execution_cycle.md R140, R151; notes/assumptions/3.md): the fault outcome
with the report if it halted, the stuck end if the host stopped it. -/
def endOfRun (s : State) : Result :=
  match s.halt with
  | some r => .fault (.invalidOpcode r.opcode r.address)
  | none => .fault .stopped

/-- One step: at the boundary a due stop request takes effect (R148), else one instruction runs; nothing runs when the core
is not running (R140). -/
def cycle (s : State) : Result :=
  if s.running then
    if s.stopDue then .next s.passBoundary.honourStop else runInstruction s.passBoundary
  else endOfRun s

/-- The state made ready to fetch these bytes at its next step: the bytes stored at PC, the core running with no halt
report, and no stop request at the coming boundary. -/
def State.readyToRun (s : State) (bytes : List Byte) : State :=
  { s.storeBytes s.pc bytes with running := true, halt := none, hostStops := false :: s.hostStops }

end Sys2Proof.Machine
end

