-- ==== Sys2Proof/Machine/Step.lean ====
section
/-! DEFINITION. The step of the machine, and where the host stores a word that the next step runs. -/

namespace Sys2Proof.Machine

/-- One step of the core (40_execution_cycle.md R147). -/
def step (s : State) : Host.Outcome State Fault Refusal := cycle s

/-- The state with the bytes of an instruction word stored at PC, so that the next step fetches and runs exactly it. -/
def State.withFetchWord (s : State) (nbits w : Nat) : State := s.readyToRun (tableBytes nbits w)

end Sys2Proof.Machine
end

