-- ==== Sys2Proof/Laws/State.lean ====
section
/-! SUPPORT. One lemma for each field of State under each named update, true by rfl. -/

namespace Sys2Proof.Machine

@[simp] theorem State.setA_a (s : State) (v : Byte) : (s.setA v).a = v := rfl
@[simp] theorem State.setA_x (s : State) (v : Byte) : (s.setA v).x = s.x := rfl
@[simp] theorem State.setA_y (s : State) (v : Byte) : (s.setA v).y = s.y := rfl
@[simp] theorem State.setA_sp (s : State) (v : Byte) : (s.setA v).sp = s.sp := rfl
@[simp] theorem State.setA_pc (s : State) (v : Byte) : (s.setA v).pc = s.pc := rfl
@[simp] theorem State.setA_p (s : State) (v : Byte) : (s.setA v).p = s.p := rfl
@[simp] theorem State.setA_mem (s : State) (v : Byte) : (s.setA v).mem = s.mem := rfl
@[simp] theorem State.setA_running (s : State) (v : Byte) : (s.setA v).running = s.running := rfl
@[simp] theorem State.setA_halt (s : State) (v : Byte) : (s.setA v).halt = s.halt := rfl
@[simp] theorem State.setA_hostStops (s : State) (v : Byte) : (s.setA v).hostStops = s.hostStops := rfl

@[simp] theorem State.setX_a (s : State) (v : Byte) : (s.setX v).a = s.a := rfl
@[simp] theorem State.setX_x (s : State) (v : Byte) : (s.setX v).x = v := rfl
@[simp] theorem State.setX_y (s : State) (v : Byte) : (s.setX v).y = s.y := rfl
@[simp] theorem State.setX_sp (s : State) (v : Byte) : (s.setX v).sp = s.sp := rfl
@[simp] theorem State.setX_pc (s : State) (v : Byte) : (s.setX v).pc = s.pc := rfl
@[simp] theorem State.setX_p (s : State) (v : Byte) : (s.setX v).p = s.p := rfl
@[simp] theorem State.setX_mem (s : State) (v : Byte) : (s.setX v).mem = s.mem := rfl
@[simp] theorem State.setX_running (s : State) (v : Byte) : (s.setX v).running = s.running := rfl
@[simp] theorem State.setX_halt (s : State) (v : Byte) : (s.setX v).halt = s.halt := rfl
@[simp] theorem State.setX_hostStops (s : State) (v : Byte) : (s.setX v).hostStops = s.hostStops := rfl

@[simp] theorem State.setY_a (s : State) (v : Byte) : (s.setY v).a = s.a := rfl
@[simp] theorem State.setY_x (s : State) (v : Byte) : (s.setY v).x = s.x := rfl
@[simp] theorem State.setY_y (s : State) (v : Byte) : (s.setY v).y = v := rfl
@[simp] theorem State.setY_sp (s : State) (v : Byte) : (s.setY v).sp = s.sp := rfl
@[simp] theorem State.setY_pc (s : State) (v : Byte) : (s.setY v).pc = s.pc := rfl
@[simp] theorem State.setY_p (s : State) (v : Byte) : (s.setY v).p = s.p := rfl
@[simp] theorem State.setY_mem (s : State) (v : Byte) : (s.setY v).mem = s.mem := rfl
@[simp] theorem State.setY_running (s : State) (v : Byte) : (s.setY v).running = s.running := rfl
@[simp] theorem State.setY_halt (s : State) (v : Byte) : (s.setY v).halt = s.halt := rfl
@[simp] theorem State.setY_hostStops (s : State) (v : Byte) : (s.setY v).hostStops = s.hostStops := rfl

@[simp] theorem State.setSp_a (s : State) (v : Byte) : (s.setSp v).a = s.a := rfl
@[simp] theorem State.setSp_x (s : State) (v : Byte) : (s.setSp v).x = s.x := rfl
@[simp] theorem State.setSp_y (s : State) (v : Byte) : (s.setSp v).y = s.y := rfl
@[simp] theorem State.setSp_sp (s : State) (v : Byte) : (s.setSp v).sp = v := rfl
@[simp] theorem State.setSp_pc (s : State) (v : Byte) : (s.setSp v).pc = s.pc := rfl
@[simp] theorem State.setSp_p (s : State) (v : Byte) : (s.setSp v).p = s.p := rfl
@[simp] theorem State.setSp_mem (s : State) (v : Byte) : (s.setSp v).mem = s.mem := rfl
@[simp] theorem State.setSp_running (s : State) (v : Byte) : (s.setSp v).running = s.running := rfl
@[simp] theorem State.setSp_halt (s : State) (v : Byte) : (s.setSp v).halt = s.halt := rfl
@[simp] theorem State.setSp_hostStops (s : State) (v : Byte) : (s.setSp v).hostStops = s.hostStops := rfl

@[simp] theorem State.setPc_a (s : State) (t : Addr) : (s.setPc t).a = s.a := rfl
@[simp] theorem State.setPc_x (s : State) (t : Addr) : (s.setPc t).x = s.x := rfl
@[simp] theorem State.setPc_y (s : State) (t : Addr) : (s.setPc t).y = s.y := rfl
@[simp] theorem State.setPc_sp (s : State) (t : Addr) : (s.setPc t).sp = s.sp := rfl
@[simp] theorem State.setPc_pc (s : State) (t : Addr) : (s.setPc t).pc = t := rfl
@[simp] theorem State.setPc_p (s : State) (t : Addr) : (s.setPc t).p = s.p := rfl
@[simp] theorem State.setPc_mem (s : State) (t : Addr) : (s.setPc t).mem = s.mem := rfl
@[simp] theorem State.setPc_running (s : State) (t : Addr) : (s.setPc t).running = s.running := rfl
@[simp] theorem State.setPc_halt (s : State) (t : Addr) : (s.setPc t).halt = s.halt := rfl
@[simp] theorem State.setPc_hostStops (s : State) (t : Addr) : (s.setPc t).hostStops = s.hostStops := rfl

@[simp] theorem State.setP_a (s : State) (p : Flags) : (s.setP p).a = s.a := rfl
@[simp] theorem State.setP_x (s : State) (p : Flags) : (s.setP p).x = s.x := rfl
@[simp] theorem State.setP_y (s : State) (p : Flags) : (s.setP p).y = s.y := rfl
@[simp] theorem State.setP_sp (s : State) (p : Flags) : (s.setP p).sp = s.sp := rfl
@[simp] theorem State.setP_pc (s : State) (p : Flags) : (s.setP p).pc = s.pc := rfl
@[simp] theorem State.setP_p (s : State) (p : Flags) : (s.setP p).p = p := rfl
@[simp] theorem State.setP_mem (s : State) (p : Flags) : (s.setP p).mem = s.mem := rfl
@[simp] theorem State.setP_running (s : State) (p : Flags) : (s.setP p).running = s.running := rfl
@[simp] theorem State.setP_halt (s : State) (p : Flags) : (s.setP p).halt = s.halt := rfl
@[simp] theorem State.setP_hostStops (s : State) (p : Flags) : (s.setP p).hostStops = s.hostStops := rfl

@[simp] theorem State.setNZ_a (s : State) (v : Byte) : (s.setNZ v).a = s.a := rfl
@[simp] theorem State.setNZ_x (s : State) (v : Byte) : (s.setNZ v).x = s.x := rfl
@[simp] theorem State.setNZ_y (s : State) (v : Byte) : (s.setNZ v).y = s.y := rfl
@[simp] theorem State.setNZ_sp (s : State) (v : Byte) : (s.setNZ v).sp = s.sp := rfl
@[simp] theorem State.setNZ_pc (s : State) (v : Byte) : (s.setNZ v).pc = s.pc := rfl
@[simp] theorem State.setNZ_p (s : State) (v : Byte) : (s.setNZ v).p = Machine.setNZ v s.p := rfl
@[simp] theorem State.setNZ_mem (s : State) (v : Byte) : (s.setNZ v).mem = s.mem := rfl
@[simp] theorem State.setNZ_running (s : State) (v : Byte) : (s.setNZ v).running = s.running := rfl
@[simp] theorem State.setNZ_halt (s : State) (v : Byte) : (s.setNZ v).halt = s.halt := rfl
@[simp] theorem State.setNZ_hostStops (s : State) (v : Byte) : (s.setNZ v).hostStops = s.hostStops := rfl

@[simp] theorem State.write_a (s : State) (addr : Addr) (v : Byte) : (s.write addr v).a = s.a := rfl
@[simp] theorem State.write_x (s : State) (addr : Addr) (v : Byte) : (s.write addr v).x = s.x := rfl
@[simp] theorem State.write_y (s : State) (addr : Addr) (v : Byte) : (s.write addr v).y = s.y := rfl
@[simp] theorem State.write_sp (s : State) (addr : Addr) (v : Byte) : (s.write addr v).sp = s.sp := rfl
@[simp] theorem State.write_pc (s : State) (addr : Addr) (v : Byte) : (s.write addr v).pc = s.pc := rfl
@[simp] theorem State.write_p (s : State) (addr : Addr) (v : Byte) : (s.write addr v).p = s.p := rfl
@[simp] theorem State.write_mem (s : State) (addr : Addr) (v : Byte) : (s.write addr v).mem = Memory.write s.mem addr.toNat v := rfl
@[simp] theorem State.write_running (s : State) (addr : Addr) (v : Byte) : (s.write addr v).running = s.running := rfl
@[simp] theorem State.write_halt (s : State) (addr : Addr) (v : Byte) : (s.write addr v).halt = s.halt := rfl
@[simp] theorem State.write_hostStops (s : State) (addr : Addr) (v : Byte) : (s.write addr v).hostStops = s.hostStops := rfl

@[simp] theorem State.advance_a (s : State) (n : Nat) : (s.advance n).a = s.a := rfl
@[simp] theorem State.advance_x (s : State) (n : Nat) : (s.advance n).x = s.x := rfl
@[simp] theorem State.advance_y (s : State) (n : Nat) : (s.advance n).y = s.y := rfl
@[simp] theorem State.advance_sp (s : State) (n : Nat) : (s.advance n).sp = s.sp := rfl
@[simp] theorem State.advance_pc (s : State) (n : Nat) : (s.advance n).pc = s.pc + BitVec.ofNat 16 n := rfl
@[simp] theorem State.advance_p (s : State) (n : Nat) : (s.advance n).p = s.p := rfl
@[simp] theorem State.advance_mem (s : State) (n : Nat) : (s.advance n).mem = s.mem := rfl
@[simp] theorem State.advance_running (s : State) (n : Nat) : (s.advance n).running = s.running := rfl
@[simp] theorem State.advance_halt (s : State) (n : Nat) : (s.advance n).halt = s.halt := rfl
@[simp] theorem State.advance_hostStops (s : State) (n : Nat) : (s.advance n).hostStops = s.hostStops := rfl

@[simp] theorem State.push_a (s : State) (v : Byte) : (s.push v).a = s.a := rfl
@[simp] theorem State.push_x (s : State) (v : Byte) : (s.push v).x = s.x := rfl
@[simp] theorem State.push_y (s : State) (v : Byte) : (s.push v).y = s.y := rfl
@[simp] theorem State.push_sp (s : State) (v : Byte) : (s.push v).sp = s.sp - 1#8 := rfl
@[simp] theorem State.push_pc (s : State) (v : Byte) : (s.push v).pc = s.pc := rfl
@[simp] theorem State.push_p (s : State) (v : Byte) : (s.push v).p = s.p := rfl
@[simp] theorem State.push_mem (s : State) (v : Byte) : (s.push v).mem = Memory.write s.mem s.stackSlot.toNat v := rfl
@[simp] theorem State.push_running (s : State) (v : Byte) : (s.push v).running = s.running := rfl
@[simp] theorem State.push_halt (s : State) (v : Byte) : (s.push v).halt = s.halt := rfl
@[simp] theorem State.push_hostStops (s : State) (v : Byte) : (s.push v).hostStops = s.hostStops := rfl

@[simp] theorem State.afterPull_a (s : State) : (s.afterPull).a = s.a := rfl
@[simp] theorem State.afterPull_x (s : State) : (s.afterPull).x = s.x := rfl
@[simp] theorem State.afterPull_y (s : State) : (s.afterPull).y = s.y := rfl
@[simp] theorem State.afterPull_sp (s : State) : (s.afterPull).sp = s.sp + 1#8 := rfl
@[simp] theorem State.afterPull_pc (s : State) : (s.afterPull).pc = s.pc := rfl
@[simp] theorem State.afterPull_p (s : State) : (s.afterPull).p = s.p := rfl
@[simp] theorem State.afterPull_mem (s : State) : (s.afterPull).mem = s.mem := rfl
@[simp] theorem State.afterPull_running (s : State) : (s.afterPull).running = s.running := rfl
@[simp] theorem State.afterPull_halt (s : State) : (s.afterPull).halt = s.halt := rfl
@[simp] theorem State.afterPull_hostStops (s : State) : (s.afterPull).hostStops = s.hostStops := rfl

@[simp] theorem State.raiseInvalidOpcode_a (s : State) (op : Byte) : (s.raiseInvalidOpcode op).a = s.a := rfl
@[simp] theorem State.raiseInvalidOpcode_x (s : State) (op : Byte) : (s.raiseInvalidOpcode op).x = s.x := rfl
@[simp] theorem State.raiseInvalidOpcode_y (s : State) (op : Byte) : (s.raiseInvalidOpcode op).y = s.y := rfl
@[simp] theorem State.raiseInvalidOpcode_sp (s : State) (op : Byte) : (s.raiseInvalidOpcode op).sp = s.sp := rfl
@[simp] theorem State.raiseInvalidOpcode_pc (s : State) (op : Byte) : (s.raiseInvalidOpcode op).pc = s.pc := rfl
@[simp] theorem State.raiseInvalidOpcode_p (s : State) (op : Byte) : (s.raiseInvalidOpcode op).p = s.p := rfl
@[simp] theorem State.raiseInvalidOpcode_mem (s : State) (op : Byte) : (s.raiseInvalidOpcode op).mem = s.mem := rfl
@[simp] theorem State.raiseInvalidOpcode_running (s : State) (op : Byte) : (s.raiseInvalidOpcode op).running = false := rfl
@[simp] theorem State.raiseInvalidOpcode_halt (s : State) (op : Byte) : (s.raiseInvalidOpcode op).halt = some { opcode := op, address := s.pc } := rfl
@[simp] theorem State.raiseInvalidOpcode_hostStops (s : State) (op : Byte) : (s.raiseInvalidOpcode op).hostStops = s.hostStops := rfl

@[simp] theorem State.honourStop_a (s : State) : (s.honourStop).a = s.a := rfl
@[simp] theorem State.honourStop_x (s : State) : (s.honourStop).x = s.x := rfl
@[simp] theorem State.honourStop_y (s : State) : (s.honourStop).y = s.y := rfl
@[simp] theorem State.honourStop_sp (s : State) : (s.honourStop).sp = s.sp := rfl
@[simp] theorem State.honourStop_pc (s : State) : (s.honourStop).pc = s.pc := rfl
@[simp] theorem State.honourStop_p (s : State) : (s.honourStop).p = s.p := rfl
@[simp] theorem State.honourStop_mem (s : State) : (s.honourStop).mem = s.mem := rfl
@[simp] theorem State.honourStop_running (s : State) : (s.honourStop).running = false := rfl
@[simp] theorem State.honourStop_halt (s : State) : (s.honourStop).halt = s.halt := rfl
@[simp] theorem State.honourStop_hostStops (s : State) : (s.honourStop).hostStops = s.hostStops := rfl

@[simp] theorem State.passBoundary_a (s : State) : (s.passBoundary).a = s.a := rfl
@[simp] theorem State.passBoundary_x (s : State) : (s.passBoundary).x = s.x := rfl
@[simp] theorem State.passBoundary_y (s : State) : (s.passBoundary).y = s.y := rfl
@[simp] theorem State.passBoundary_sp (s : State) : (s.passBoundary).sp = s.sp := rfl
@[simp] theorem State.passBoundary_pc (s : State) : (s.passBoundary).pc = s.pc := rfl
@[simp] theorem State.passBoundary_p (s : State) : (s.passBoundary).p = s.p := rfl
@[simp] theorem State.passBoundary_mem (s : State) : (s.passBoundary).mem = s.mem := rfl
@[simp] theorem State.passBoundary_running (s : State) : (s.passBoundary).running = s.running := rfl
@[simp] theorem State.passBoundary_halt (s : State) : (s.passBoundary).halt = s.halt := rfl
@[simp] theorem State.passBoundary_hostStops (s : State) : (s.passBoundary).hostStops = s.hostStops.tail := rfl

@[simp] theorem setFlag_C_c (b : Bool) (p : Flags) : (setFlag .C b p).c = b := rfl
@[simp] theorem setFlag_C_z (b : Bool) (p : Flags) : (setFlag .C b p).z = p.z := rfl
@[simp] theorem setFlag_C_i (b : Bool) (p : Flags) : (setFlag .C b p).i = p.i := rfl
@[simp] theorem setFlag_C_d (b : Bool) (p : Flags) : (setFlag .C b p).d = p.d := rfl
@[simp] theorem setFlag_C_b (b : Bool) (p : Flags) : (setFlag .C b p).b = p.b := rfl
@[simp] theorem setFlag_C_v (b : Bool) (p : Flags) : (setFlag .C b p).v = p.v := rfl
@[simp] theorem setFlag_C_n (b : Bool) (p : Flags) : (setFlag .C b p).n = p.n := rfl
@[simp] theorem setFlag_Z_c (b : Bool) (p : Flags) : (setFlag .Z b p).c = p.c := rfl
@[simp] theorem setFlag_Z_z (b : Bool) (p : Flags) : (setFlag .Z b p).z = b := rfl
@[simp] theorem setFlag_Z_i (b : Bool) (p : Flags) : (setFlag .Z b p).i = p.i := rfl
@[simp] theorem setFlag_Z_d (b : Bool) (p : Flags) : (setFlag .Z b p).d = p.d := rfl
@[simp] theorem setFlag_Z_b (b : Bool) (p : Flags) : (setFlag .Z b p).b = p.b := rfl
@[simp] theorem setFlag_Z_v (b : Bool) (p : Flags) : (setFlag .Z b p).v = p.v := rfl
@[simp] theorem setFlag_Z_n (b : Bool) (p : Flags) : (setFlag .Z b p).n = p.n := rfl
@[simp] theorem setFlag_I_c (b : Bool) (p : Flags) : (setFlag .I b p).c = p.c := rfl
@[simp] theorem setFlag_I_z (b : Bool) (p : Flags) : (setFlag .I b p).z = p.z := rfl
@[simp] theorem setFlag_I_i (b : Bool) (p : Flags) : (setFlag .I b p).i = b := rfl
@[simp] theorem setFlag_I_d (b : Bool) (p : Flags) : (setFlag .I b p).d = p.d := rfl
@[simp] theorem setFlag_I_b (b : Bool) (p : Flags) : (setFlag .I b p).b = p.b := rfl
@[simp] theorem setFlag_I_v (b : Bool) (p : Flags) : (setFlag .I b p).v = p.v := rfl
@[simp] theorem setFlag_I_n (b : Bool) (p : Flags) : (setFlag .I b p).n = p.n := rfl
@[simp] theorem setFlag_D_c (b : Bool) (p : Flags) : (setFlag .D b p).c = p.c := rfl
@[simp] theorem setFlag_D_z (b : Bool) (p : Flags) : (setFlag .D b p).z = p.z := rfl
@[simp] theorem setFlag_D_i (b : Bool) (p : Flags) : (setFlag .D b p).i = p.i := rfl
@[simp] theorem setFlag_D_d (b : Bool) (p : Flags) : (setFlag .D b p).d = b := rfl
@[simp] theorem setFlag_D_b (b : Bool) (p : Flags) : (setFlag .D b p).b = p.b := rfl
@[simp] theorem setFlag_D_v (b : Bool) (p : Flags) : (setFlag .D b p).v = p.v := rfl
@[simp] theorem setFlag_D_n (b : Bool) (p : Flags) : (setFlag .D b p).n = p.n := rfl
@[simp] theorem setFlag_B_c (b : Bool) (p : Flags) : (setFlag .B b p).c = p.c := rfl
@[simp] theorem setFlag_B_z (b : Bool) (p : Flags) : (setFlag .B b p).z = p.z := rfl
@[simp] theorem setFlag_B_i (b : Bool) (p : Flags) : (setFlag .B b p).i = p.i := rfl
@[simp] theorem setFlag_B_d (b : Bool) (p : Flags) : (setFlag .B b p).d = p.d := rfl
@[simp] theorem setFlag_B_b (b : Bool) (p : Flags) : (setFlag .B b p).b = b := rfl
@[simp] theorem setFlag_B_v (b : Bool) (p : Flags) : (setFlag .B b p).v = p.v := rfl
@[simp] theorem setFlag_B_n (b : Bool) (p : Flags) : (setFlag .B b p).n = p.n := rfl
@[simp] theorem setFlag_V_c (b : Bool) (p : Flags) : (setFlag .V b p).c = p.c := rfl
@[simp] theorem setFlag_V_z (b : Bool) (p : Flags) : (setFlag .V b p).z = p.z := rfl
@[simp] theorem setFlag_V_i (b : Bool) (p : Flags) : (setFlag .V b p).i = p.i := rfl
@[simp] theorem setFlag_V_d (b : Bool) (p : Flags) : (setFlag .V b p).d = p.d := rfl
@[simp] theorem setFlag_V_b (b : Bool) (p : Flags) : (setFlag .V b p).b = p.b := rfl
@[simp] theorem setFlag_V_v (b : Bool) (p : Flags) : (setFlag .V b p).v = b := rfl
@[simp] theorem setFlag_V_n (b : Bool) (p : Flags) : (setFlag .V b p).n = p.n := rfl
@[simp] theorem setFlag_N_c (b : Bool) (p : Flags) : (setFlag .N b p).c = p.c := rfl
@[simp] theorem setFlag_N_z (b : Bool) (p : Flags) : (setFlag .N b p).z = p.z := rfl
@[simp] theorem setFlag_N_i (b : Bool) (p : Flags) : (setFlag .N b p).i = p.i := rfl
@[simp] theorem setFlag_N_d (b : Bool) (p : Flags) : (setFlag .N b p).d = p.d := rfl
@[simp] theorem setFlag_N_b (b : Bool) (p : Flags) : (setFlag .N b p).b = p.b := rfl
@[simp] theorem setFlag_N_v (b : Bool) (p : Flags) : (setFlag .N b p).v = p.v := rfl
@[simp] theorem setFlag_N_n (b : Bool) (p : Flags) : (setFlag .N b p).n = b := rfl

@[simp] theorem setNZ_c (v : Byte) (p : Flags) : (setNZ v p).c = p.c := rfl
@[simp] theorem setNZ_z (v : Byte) (p : Flags) : (setNZ v p).z = (v == 0#8) := rfl
@[simp] theorem setNZ_i (v : Byte) (p : Flags) : (setNZ v p).i = p.i := rfl
@[simp] theorem setNZ_d (v : Byte) (p : Flags) : (setNZ v p).d = p.d := rfl
@[simp] theorem setNZ_b (v : Byte) (p : Flags) : (setNZ v p).b = p.b := rfl
@[simp] theorem setNZ_v (v : Byte) (p : Flags) : (setNZ v p).v = p.v := rfl
@[simp] theorem setNZ_n (v : Byte) (p : Flags) : (setNZ v p).n = v.msb := rfl

@[simp] theorem State.storeBytes_a (s : State) (addr : Addr) (bs : List Byte) : (s.storeBytes addr bs).a = s.a := by
  induction bs generalizing s addr with
  | nil => rfl
  | cons v vs ih => simp [State.storeBytes, ih]
@[simp] theorem State.storeBytes_x (s : State) (addr : Addr) (bs : List Byte) : (s.storeBytes addr bs).x = s.x := by
  induction bs generalizing s addr with
  | nil => rfl
  | cons v vs ih => simp [State.storeBytes, ih]
@[simp] theorem State.storeBytes_y (s : State) (addr : Addr) (bs : List Byte) : (s.storeBytes addr bs).y = s.y := by
  induction bs generalizing s addr with
  | nil => rfl
  | cons v vs ih => simp [State.storeBytes, ih]
@[simp] theorem State.storeBytes_sp (s : State) (addr : Addr) (bs : List Byte) : (s.storeBytes addr bs).sp = s.sp := by
  induction bs generalizing s addr with
  | nil => rfl
  | cons v vs ih => simp [State.storeBytes, ih]
@[simp] theorem State.storeBytes_pc (s : State) (addr : Addr) (bs : List Byte) : (s.storeBytes addr bs).pc = s.pc := by
  induction bs generalizing s addr with
  | nil => rfl
  | cons v vs ih => simp [State.storeBytes, ih]
@[simp] theorem State.storeBytes_p (s : State) (addr : Addr) (bs : List Byte) : (s.storeBytes addr bs).p = s.p := by
  induction bs generalizing s addr with
  | nil => rfl
  | cons v vs ih => simp [State.storeBytes, ih]
@[simp] theorem State.storeBytes_running (s : State) (addr : Addr) (bs : List Byte) : (s.storeBytes addr bs).running = s.running := by
  induction bs generalizing s addr with
  | nil => rfl
  | cons v vs ih => simp [State.storeBytes, ih]
@[simp] theorem State.storeBytes_halt (s : State) (addr : Addr) (bs : List Byte) : (s.storeBytes addr bs).halt = s.halt := by
  induction bs generalizing s addr with
  | nil => rfl
  | cons v vs ih => simp [State.storeBytes, ih]
@[simp] theorem State.storeBytes_hostStops (s : State) (addr : Addr) (bs : List Byte) : (s.storeBytes addr bs).hostStops = s.hostStops := by
  induction bs generalizing s addr with
  | nil => rfl
  | cons v vs ih => simp [State.storeBytes, ih]

end Sys2Proof.Machine
end

