-- ==== Sys2Proof/Laws/Memory.lean ====
section
/-! SUPPORT. The laws of memory: what a read after a write gives, that every operation keeps the canonical form, and that
canonical memories that read alike are equal. -/

namespace Sys2Proof.Machine

/-! ### Erasing and inserting -/

theorem Memory.read_erase_same (m : Memory) (k : Nat) : Memory.read (Memory.erase m k) k = Config.unlistedByte := by
  induction m with
  | nil => rfl
  | cons c t ih =>
    by_cases h : c.1 = k
    · simpa [Memory.erase, h] using ih
    · simpa [Memory.erase, h, Memory.read] using ih

theorem Memory.read_erase_other (m : Memory) {k j : Nat} (hj : j ≠ k) :
    Memory.read (Memory.erase m k) j = Memory.read m j := by
  induction m with
  | nil => rfl
  | cons c t ih =>
    by_cases h : c.1 = k
    · have : c.1 ≠ j := fun e => hj (e ▸ h)
      simpa [Memory.erase, h, Memory.read, Ne.symm hj] using ih
    · by_cases g : c.1 = j
      · simp [Memory.erase, Memory.read, g, hj]
      · simpa [Memory.erase, h, Memory.read, g] using ih

theorem Memory.not_mem_erase (m : Memory) (k : Nat) : ∀ c ∈ Memory.erase m k, c.1 ≠ k := by
  intro c hc
  simpa using (List.mem_filter.mp hc).2

theorem Memory.read_insert_same {m : Memory} {k : Nat} (v : Byte) (h : ∀ c ∈ m, c.1 ≠ k) :
    Memory.read (Memory.insert m k v) k = v := by
  induction m with
  | nil => simp [Memory.insert, Memory.read]
  | cons c t ih =>
    have hc : c.1 ≠ k := h c (by simp)
    have ht := ih fun d hd => h d (by simp [hd])
    by_cases g : k < c.1
    · simp [Memory.insert, g, Memory.read]
    · simp [Memory.insert, g, Memory.read, hc, ht]

theorem Memory.read_insert_other (m : Memory) {k j : Nat} (v : Byte) (hj : j ≠ k) :
    Memory.read (Memory.insert m k v) j = Memory.read m j := by
  induction m with
  | nil => simp [Memory.insert, Memory.read, Ne.symm hj]
  | cons c t ih =>
    by_cases g : k < c.1
    · simp [Memory.insert, g, Memory.read, Ne.symm hj]
    · simp [Memory.insert, g, Memory.read, ih]

theorem Memory.mem_insert {m : Memory} {k : Nat} {v : Byte} {c : Host.Cell} :
    c ∈ Memory.insert m k v ↔ c = (k, v) ∨ c ∈ m := by
  induction m with
  | nil => simp [Memory.insert]
  | cons d t ih =>
    by_cases g : k < d.1
    · simp [Memory.insert, g]
    · simp only [Memory.insert, g, if_false, List.mem_cons, ih]
      tauto

/-! ### The laws of write -/

/-- Read after write, the same address (20_memory.md R81, R91). -/
theorem Memory.read_write_same (m : Memory) (k : Nat) (v : Byte) : Memory.read (Memory.write m k v) k = v := by
  by_cases h : v = Config.unlistedByte
  · simpa [Memory.write, h] using Memory.read_erase_same m k
  · simpa [Memory.write, h] using Memory.read_insert_same v (Memory.not_mem_erase m k)

/-- Read after write, another address: "changes nothing else" (20_memory.md R81). -/
theorem Memory.read_write_other (m : Memory) {k j : Nat} (v : Byte) (hj : j ≠ k) :
    Memory.read (Memory.write m k v) j = Memory.read m j := by
  by_cases h : v = Config.unlistedByte
  · simpa [Memory.write, h] using Memory.read_erase_other m hj
  · simpa [Memory.write, h, Memory.read_erase_other m hj] using Memory.read_insert_other (Memory.erase m k) v hj

theorem Memory.wf_nil : Memory.wf [] := ⟨.nil, by simp⟩

theorem Memory.wf_erase {m : Memory} (h : Memory.wf m) (k : Nat) : Memory.wf (Memory.erase m k) :=
  ⟨h.1.filter _, fun c hc => h.2 c (List.mem_filter.mp hc).1⟩

theorem Memory.pairwise_insert {m : Memory} {k : Nat} (v : Byte) (h : m.Pairwise (fun c d => c.1 < d.1))
    (hk : ∀ c ∈ m, c.1 ≠ k) : (Memory.insert m k v).Pairwise (fun c d => c.1 < d.1) := by
  induction m with
  | nil => simp [Memory.insert]
  | cons c t ih =>
    obtain ⟨hc, ht⟩ := List.pairwise_cons.mp h
    by_cases g : k < c.1
    · simp only [Memory.insert, g, if_true]
      refine List.pairwise_cons.mpr ⟨fun d hd => ?_, h⟩
      obtain rfl | hd := List.mem_cons.mp hd
      · exact g
      · exact Nat.lt_trans g (hc d hd)
    · simp only [Memory.insert, g, if_false]
      refine List.pairwise_cons.mpr ⟨fun d hd => ?_, ih ht fun d hd => hk d (by simp [hd])⟩
      obtain rfl | hd := Memory.mem_insert.mp hd
      · have := hk c (by simp)
        simp only at *
        omega
      · exact hc d hd

/-- Every store keeps the canonical form. -/
theorem Memory.wf_write {m : Memory} (h : Memory.wf m) {k : Nat} (hk : k < Config.memorySize) (v : Byte) :
    Memory.wf (Memory.write m k v) := by
  by_cases hv : v = Config.unlistedByte
  · simpa only [Memory.write, hv, if_true] using Memory.wf_erase h k
  · simp only [Memory.write, hv, if_false]
    refine ⟨Memory.pairwise_insert v (Memory.wf_erase h k).1 (Memory.not_mem_erase m k), fun c hc => ?_⟩
    obtain rfl | hc := Memory.mem_insert.mp hc
    · exact ⟨hk, hv⟩
    · exact (Memory.wf_erase h k).2 c hc

theorem Memory.read_of_lt {m : Memory} {k : Nat} (h : ∀ c ∈ m, k < c.1) : Memory.read m k = Config.unlistedByte := by
  induction m with
  | nil => rfl
  | cons c t ih =>
    have hc := h c (by simp)
    simp [Memory.read, Nat.ne_of_gt hc, ih fun d hd => h d (by simp [hd])]

/-- Equal memories are equal data: two canonical memories that read alike everywhere are the same list. -/
theorem Memory.ext_of_read {m n : Memory} (hm : Memory.wf m) (hn : Memory.wf n)
    (h : ∀ k, Memory.read m k = Memory.read n k) : m = n := by
  induction m generalizing n with
  | nil =>
    cases n with
    | nil => rfl
    | cons d u =>
      have := h d.1
      simp only [Memory.read, if_true] at this
      exact absurd this.symm (hn.2 d (by simp)).2
  | cons c t ih =>
    obtain ⟨hc, ht⟩ := List.pairwise_cons.mp hm.1
    cases n with
    | nil =>
      have := h c.1
      simp only [Memory.read, if_true] at this
      exact absurd this (hm.2 c (by simp)).2
    | cons d u =>
      obtain ⟨hd, hu⟩ := List.pairwise_cons.mp hn.1
      have hcv := (hm.2 c (by simp)).2
      have hdv := (hn.2 d (by simp)).2
      have key : c.1 = d.1 := by
        rcases Nat.lt_trichotomy c.1 d.1 with g | g | g
        · have e := h c.1
          rw [Memory.read_of_lt (m := d :: u) (by
            intro e he
            obtain rfl | he := List.mem_cons.mp he
            · exact g
            · exact Nat.lt_trans g (hd e he))] at e
          simp only [Memory.read, if_true] at e
          exact absurd e hcv
        · exact g
        · have e := h d.1
          rw [Memory.read_of_lt (m := c :: t) (by
            intro e he
            obtain rfl | he := List.mem_cons.mp he
            · exact g
            · exact Nat.lt_trans g (hc e he))] at e
          simp only [Memory.read, if_true] at e
          exact absurd e.symm hdv
      have val : c.2 = d.2 := by
        have e := h c.1
        simpa [Memory.read, key] using e
      have heads : c = d := Prod.ext key val
      subst heads
      refine congrArg _ (ih ⟨ht, fun e he => hm.2 e (by simp [he])⟩ ⟨hu, fun e he => hn.2 e (by simp [he])⟩ fun k => ?_)
      by_cases g : c.1 = k
      · subst g
        rw [Memory.read_of_lt fun e he => hc e he, Memory.read_of_lt fun e he => hd e he]
      · simpa [Memory.read, g] using h k

/-! ### The same on the state -/

theorem Addr.toNat_ne {a b : Addr} (h : a ≠ b) : a.toNat ≠ b.toNat := fun e => h (BitVec.eq_of_toNat_eq e)

@[simp] theorem State.read_write_same (s : State) (addr : Addr) (v : Byte) : (s.write addr v).read addr = v :=
  Memory.read_write_same _ _ _

theorem State.read_write_other (s : State) {addr other : Addr} (v : Byte) (h : other ≠ addr) :
    (s.write addr v).read other = s.read other :=
  Memory.read_write_other _ _ (Addr.toNat_ne h)

/-- What a read gives after a store, at any address. -/
theorem State.read_write (s : State) (addr other : Addr) (v : Byte) :
    (s.write addr v).read other = if other = addr then v else s.read other := by
  by_cases h : other = addr
  · simp [h]
  · simp [h, State.read_write_other s v h]

theorem State.wf_write {s : State} (h : Memory.wf s.mem) (addr : Addr) (v : Byte) : Memory.wf (s.write addr v).mem :=
  Memory.wf_write h addr.isLt v

/-- A read depends on the memory alone. -/
theorem State.read_congr {s t : State} (h : s.mem = t.mem) (addr : Addr) : s.read addr = t.read addr := by
  simp [State.read, h]

theorem State.wf_storeBytes {s : State} (h : Memory.wf s.mem) (addr : Addr) (bs : List Byte) :
    Memory.wf (s.storeBytes addr bs).mem := by
  induction bs generalizing s addr with
  | nil => exact h
  | cons v vs ih => exact ih (State.wf_write h addr v) (addr + 1#16)

end Sys2Proof.Machine
end

