-- ==== Sys2Proof/Machine/Launch.lean ====
section
/-! DEFINITION. The launch of a run: what the loader may place and seed before the first step (70_reset_and_hazards.md
R380 to R386). The registers and PC have the defaults the spec states; the image has none (92_eei_decisions.md D12). -/

namespace Sys2Proof.Machine

/-- The launch record (70_reset_and_hazards.md R386): every launch names its image (R382, decision D12: "no default"); what
the loader does not seed is as R380, R381 and R383 say. With it the host's stop schedule, whose default of no stop to come is
a DESIGN CHOICE (notes/assumptions/2.md). -/
structure Launch where
  image : Memory
  pc : Addr := Config.powerOnPc
  a : Byte := Config.powerOnByte
  x : Byte := Config.powerOnByte
  y : Byte := Config.powerOnByte
  sp : Byte := Config.powerOnByte
  p : Flags := Flags.powerOn
  stops : List Bool := []
  deriving DecidableEq, Repr

/-- A memory image from (address, byte) pairs, in canonical form whatever their order; a later pair overwrites an earlier
one. DESIGN CHOICE (notes/assumptions/1.md): a byte that no pair names is `Config.unlistedByte`, where the spec says nothing
of what it holds (R382). -/
def imageOf : List (Addr × Byte) → Memory :=
  List.foldl (fun m c => Memory.write m c.1.toNat c.2) []

/-- The state at launch: running, with no halt report (70_reset_and_hazards.md R384). -/
def launch (l : Launch) : State :=
  { a := l.a, x := l.x, y := l.y, sp := l.sp, pc := l.pc, p := l.p, mem := l.image,
    running := true, halt := none, hostStops := l.stops }

end Sys2Proof.Machine
end

