-- ==== Sys2Proof/Laws/Launch.lean ====
section
/-! SUPPORT. What the loader's pairs do to an image, for every list of pairs and every image they start from. -/

namespace Sys2Proof.Machine

/-- The image after more pairs: those of the second list are stored over the image of the first. -/
theorem imageOf_append (before rest : List (Addr × Byte)) :
    imageOf (before ++ rest) = rest.foldl (fun m c => Memory.write m c.1.toNat c.2) (imageOf before) :=
  List.foldl_append

/-- Storing pairs keeps the canonical form. -/
theorem wf_storePairs {m : Memory} (h : Memory.wf m) (cells : List (Addr × Byte)) :
    Memory.wf (cells.foldl (fun m c => Memory.write m c.1.toNat c.2) m) := by
  induction cells generalizing m with
  | nil => exact h
  | cons c t ih => exact ih (Memory.wf_write h c.1.isLt c.2)

/-- Storing pairs leaves every address that no pair names. -/
theorem read_storePairs_other (m : Memory) {cells : List (Addr × Byte)} {addr : Addr} (h : ∀ c ∈ cells, c.1 ≠ addr) :
    Memory.read (cells.foldl (fun m c => Memory.write m c.1.toNat c.2) m) addr.toNat = Memory.read m addr.toNat := by
  induction cells generalizing m with
  | nil => rfl
  | cons c t ih =>
    rw [List.foldl_cons, ih _ (fun d hd => h d (List.mem_cons_of_mem c hd))]
    exact Memory.read_write_other m c.2 (Addr.toNat_ne (h c List.mem_cons_self).symm)

end Sys2Proof.Machine
end

