-- ==== Sys2Proof/Laws/Flags.lean ====
section
/-! SUPPORT. The packed status byte bit by bit, and the adder and comparator as exact arithmetic. -/

namespace Sys2Proof.Machine

/-- Bits of the packed status byte (10_state.md R47). -/
theorem readP_bits (p : Flags) :
    (readP p).getLsbD 7 = p.n ∧ (readP p).getLsbD 6 = p.v ∧ (readP p).getLsbD 5 = true ∧ (readP p).getLsbD 4 = p.b ∧
      (readP p).getLsbD 3 = p.d ∧ (readP p).getLsbD 2 = p.i ∧ (readP p).getLsbD 1 = p.z ∧ (readP p).getLsbD 0 = p.c := by
  obtain ⟨n, v, b, d, i, z, c⟩ := p
  revert n v b d i z c
  decide

theorem pushedP_bits (p : Flags) :
    (pushedP p).getLsbD 7 = p.n ∧ (pushedP p).getLsbD 6 = p.v ∧ (pushedP p).getLsbD 5 = true ∧
      (pushedP p).getLsbD 4 = true ∧ (pushedP p).getLsbD 3 = p.d ∧ (pushedP p).getLsbD 2 = p.i ∧
      (pushedP p).getLsbD 1 = p.z ∧ (pushedP p).getLsbD 0 = p.c := by
  obtain ⟨n, v, b, d, i, z, c⟩ := p
  revert n v b d i z c
  decide

/-- Loading a pushed status byte gives the flags back with B set. -/
theorem writeP_pushedP (p : Flags) : writeP (pushedP p) = { p with b := true } := by
  obtain ⟨h7, h6, -, h4, h3, h2, h1, h0⟩ := pushedP_bits p
  simp only [writeP, h7, h6, h4, h3, h2, h1, h0]

/-- The adder's result and carry are the exact sum (42_arithmetic.md R191). -/
theorem add8_exact (a m : Byte) (cin : Bool) :
    (add8 a m cin).result.toNat + 256 * (add8 a m cin).carry.toNat = a.toNat + m.toNat + cin.toNat := by
  have ha := a.isLt
  have hm := m.isLt
  have hc : cin.toNat ≤ 1 := by cases cin <;> simp
  simp only [add8, BitVec.toNat_ofNat]
  by_cases g : a.toNat + m.toNat + cin.toNat > 255
  · simp only [g, decide_true, Bool.toNat_true]
    omega
  · simp only [g, decide_false, Bool.toNat_false]
    omega

/-- The comparator writes C, Z and N only (42_arithmetic.md R194). -/
theorem cmp8_fields (reg m : Byte) (p : Flags) :
    cmp8 reg m p = { p with c := decide (m.toNat ≤ reg.toNat), z := reg == m, n := (reg - m).msb } := rfl

/-- BIT writes Z, N and V only (43_shift_logic.md R238). -/
theorem bitTest_fields (a m : Byte) (p : Flags) :
    bitTest a m p = { p with z := a &&& m == 0#8, n := m.getLsbD 7, v := m.getLsbD 6 } := rfl

end Sys2Proof.Machine
end

