-- ==== Sys2Proof/Laws/Ops.lean ====
section
/-! SUPPORT. One lemma for each shared operation over the stack, the trap and the bytes of a word, saying what it does, for
proofs to cite instead of unfolding it. -/

namespace Sys2Proof.Machine

/-! ### Bytes and words -/

theorem hiLo_toNat (hi lo : Byte) : (hiLo hi lo).toNat = 256 * hi.toNat + lo.toNat := by
  simp only [hiLo, BitVec.toNat_append]
  rw [← Nat.shiftLeft_add_eq_or_of_lt lo.isLt, Nat.shiftLeft_eq]
  omega

theorem zext16_toNat (v : Byte) : (zext16 v).toNat = v.toNat := by
  simp only [zext16, BitVec.toNat_setWidth]
  omega

theorem lowByte_toNat (w : Addr) : (lowByte w).toNat = w.toNat % 256 := by
  simp [lowByte, BitVec.toNat_setWidth]

theorem highByte_toNat (w : Addr) : (highByte w).toNat = w.toNat / 256 := by
  simp only [highByte, BitVec.extractLsb'_toNat, Nat.shiftRight_eq_div_pow]
  omega

@[simp] theorem hiLo_halves (w : Addr) : hiLo (highByte w) (lowByte w) = w := by
  apply BitVec.eq_of_toNat_eq
  rw [hiLo_toNat, highByte_toNat, lowByte_toNat]
  omega

@[simp] theorem highByte_hiLo (hi lo : Byte) : highByte (hiLo hi lo) = hi := by
  apply BitVec.eq_of_toNat_eq
  rw [highByte_toNat, hiLo_toNat]
  omega

@[simp] theorem lowByte_hiLo (hi lo : Byte) : lowByte (hiLo hi lo) = lo := by
  apply BitVec.eq_of_toNat_eq
  rw [lowByte_toNat, hiLo_toNat]
  omega

/-! ### The stack -/

theorem State.stackSlot_toNat (s : State) : s.stackSlot.toNat = 256 + s.sp.toNat := by
  simp only [State.stackSlot, BitVec.toNat_add, zext16_toNat, BitVec.toNat_ofNat]
  omega

/-- Two stack slots are the same exactly when the stack pointers are. -/
theorem stackSlot_inj {s t : State} : s.stackSlot = t.stackSlot ↔ s.sp = t.sp := by
  constructor
  · intro h
    apply BitVec.eq_of_toNat_eq
    have := congrArg BitVec.toNat h
    rw [State.stackSlot_toNat, State.stackSlot_toNat] at this
    omega
  · intro h
    simp [State.stackSlot, h]

/-- What a read gives after a push (20_memory.md R85). -/
theorem State.read_push (s : State) (v : Byte) (addr : Addr) :
    (s.push v).read addr = if addr = s.stackSlot then v else s.read addr := State.read_write s s.stackSlot addr v

/-- A pull after a push gives the pushed byte (20_memory.md R86). -/
@[simp] theorem State.pulled_push (s : State) (v : Byte) : (s.push v).pulled = v := by
  have slot : (s.push v).afterPull.stackSlot = s.stackSlot := by
    rw [stackSlot_inj]
    simp
  have mem : (s.push v).afterPull.read s.stackSlot = (s.push v).read s.stackSlot := rfl
  rw [State.pulled, slot, mem, State.read_push, if_pos rfl]

theorem State.wf_push {s : State} (h : Memory.wf s.mem) (v : Byte) : Memory.wf (s.push v).mem :=
  State.wf_write h s.stackSlot v

theorem State.wf_pushWord {s : State} (h : Memory.wf s.mem) (w : Addr) : Memory.wf (s.pushWord w).mem :=
  State.wf_push (State.wf_push h _) _

/-! A pushed word moves SP by two and changes no other register. -/

@[simp] theorem State.pushWord_a (s : State) (w : Addr) : (s.pushWord w).a = s.a := by
  simp [State.pushWord]
@[simp] theorem State.pushWord_x (s : State) (w : Addr) : (s.pushWord w).x = s.x := by
  simp [State.pushWord]
@[simp] theorem State.pushWord_y (s : State) (w : Addr) : (s.pushWord w).y = s.y := by
  simp [State.pushWord]
@[simp] theorem State.pushWord_sp (s : State) (w : Addr) : (s.pushWord w).sp = s.sp - 1#8 - 1#8 := by
  simp [State.pushWord]
@[simp] theorem State.pushWord_pc (s : State) (w : Addr) : (s.pushWord w).pc = s.pc := by
  simp [State.pushWord]
@[simp] theorem State.pushWord_p (s : State) (w : Addr) : (s.pushWord w).p = s.p := by
  simp [State.pushWord]
@[simp] theorem State.pushWord_running (s : State) (w : Addr) : (s.pushWord w).running = s.running := by
  simp [State.pushWord]
@[simp] theorem State.pushWord_halt (s : State) (w : Addr) : (s.pushWord w).halt = s.halt := by
  simp [State.pushWord]
@[simp] theorem State.pushWord_hostStops (s : State) (w : Addr) : (s.pushWord w).hostStops = s.hostStops := by
  simp [State.pushWord]

/-- What a read gives after a word is pushed: the high byte at the slot, the low byte at the next slot down. -/
theorem State.read_pushWord (s : State) (w addr : Addr) :
    (s.pushWord w).read addr =
      if addr = (s.push (highByte w)).stackSlot then lowByte w
      else if addr = s.stackSlot then highByte w else s.read addr := by
  rw [State.pushWord, State.read_push, State.read_push]

/-! ### The trap and the return -/

/-- BRK's three pushes: the return address, then the status byte (45_stack_subroutine.md R286). -/
theorem State.takeBreak_mem (s : State) :
    s.takeBreak.mem = ((s.pushWord s.returnAddress).push (pushedP s.p)).mem := by
  simp only [State.takeBreak, State.setPc_mem, State.setP_mem]

theorem State.wf_takeBreak {s : State} (h : Memory.wf s.mem) : Memory.wf s.takeBreak.mem := by
  rw [State.takeBreak_mem]
  exact State.wf_push (State.wf_pushWord h _) _

/-! Taking BRK keeps A, X, Y and the run's fields, moves SP by three, sets B and I only, and loads PC from the vector. -/

@[simp] theorem State.takeBreak_a (s : State) : s.takeBreak.a = s.a := by
  simp [State.takeBreak, setFlag]
@[simp] theorem State.takeBreak_x (s : State) : s.takeBreak.x = s.x := by
  simp [State.takeBreak, setFlag]
@[simp] theorem State.takeBreak_y (s : State) : s.takeBreak.y = s.y := by
  simp [State.takeBreak, setFlag]
@[simp] theorem State.takeBreak_sp (s : State) : s.takeBreak.sp = s.sp - 1#8 - 1#8 - 1#8 := by
  simp [State.takeBreak, setFlag]
@[simp] theorem State.takeBreak_p (s : State) : s.takeBreak.p = { s.p with b := true, i := true } := by
  simp [State.takeBreak, setFlag]
@[simp] theorem State.takeBreak_running (s : State) : s.takeBreak.running = s.running := by
  simp [State.takeBreak, setFlag]
@[simp] theorem State.takeBreak_halt (s : State) : s.takeBreak.halt = s.halt := by
  simp [State.takeBreak, setFlag]
@[simp] theorem State.takeBreak_hostStops (s : State) : s.takeBreak.hostStops = s.hostStops := by
  simp [State.takeBreak, setFlag]

theorem brkVector_not_stackSlot (s : State) : brkVectorLow ≠ s.stackSlot ∧ brkVectorHigh ≠ s.stackSlot := by
  have h := s.stackSlot_toNat
  have hs := s.sp.isLt
  constructor <;> intro e <;> have := congrArg BitVec.toNat e <;>
    simp only [brkVectorLow, brkVectorHigh, BitVec.toNat_ofNat] at this <;> omega

/-- The vector lies outside the stack page, so the pushes do not touch it. -/
theorem State.takeBreak_pc (s : State) : s.takeBreak.pc = hiLo (s.read brkVectorHigh) (s.read brkVectorLow) := by
  have reads : ∀ addr, s.takeBreak.read addr = ((s.pushWord s.returnAddress).push (pushedP s.p)).read addr :=
    fun addr => State.read_congr s.takeBreak_mem addr
  have same : s.takeBreak.pc = hiLo (s.takeBreak.read brkVectorHigh) (s.takeBreak.read brkVectorLow) := by
    rw [reads, reads]
    simp only [State.takeBreak, State.setPc_pc]
    rfl
  rw [same, reads, reads]
  simp only [State.read_push, State.read_pushWord, (brkVector_not_stackSlot _).1, (brkVector_not_stackSlot _).2, if_false]

/-! Returning from BRK keeps A, X, Y, the memory and the run's fields, moves SP by three, and loads P and PC. -/

@[simp] theorem State.returnFromBreak_a (s : State) : s.returnFromBreak.a = s.a := by
  simp [State.returnFromBreak]
@[simp] theorem State.returnFromBreak_x (s : State) : s.returnFromBreak.x = s.x := by
  simp [State.returnFromBreak]
@[simp] theorem State.returnFromBreak_y (s : State) : s.returnFromBreak.y = s.y := by
  simp [State.returnFromBreak]
@[simp] theorem State.returnFromBreak_sp (s : State) : s.returnFromBreak.sp = s.sp + 1#8 + 1#8 + 1#8 := by
  simp [State.returnFromBreak]
@[simp] theorem State.returnFromBreak_p (s : State) : s.returnFromBreak.p = writeP s.pulled := by
  simp [State.returnFromBreak]
@[simp] theorem State.returnFromBreak_mem (s : State) : s.returnFromBreak.mem = s.mem := by
  simp [State.returnFromBreak]
@[simp] theorem State.returnFromBreak_running (s : State) : s.returnFromBreak.running = s.running := by
  simp [State.returnFromBreak]
@[simp] theorem State.returnFromBreak_halt (s : State) : s.returnFromBreak.halt = s.halt := by
  simp [State.returnFromBreak]
@[simp] theorem State.returnFromBreak_hostStops (s : State) : s.returnFromBreak.hostStops = s.hostStops := by
  simp [State.returnFromBreak]

theorem State.pulled_congr {s t : State} (hm : s.mem = t.mem) (hs : s.sp = t.sp) : s.pulled = t.pulled := by
  simp [State.pulled, State.read, State.stackSlot, hm, hs]

/-- PC after the return: the two bytes above the status byte (45_stack_subroutine.md R287). -/
theorem State.returnFromBreak_pc (s : State) : s.returnFromBreak.pc = s.afterPull.pulledWord := by
  have low : (s.afterPull.setP (writeP s.pulled)).pulled = s.afterPull.pulled := State.pulled_congr rfl rfl
  have high : (s.afterPull.setP (writeP s.pulled)).afterPull.pulled = s.afterPull.afterPull.pulled :=
    State.pulled_congr rfl rfl
  simp only [State.returnFromBreak, State.setPc_pc, State.pulledWord]
  rw [low, high]

/-- What a pull gives: the byte at page 1, one slot above SP (20_memory.md R86). -/
theorem State.pulled_eq (s : State) {slot : Addr} (h : slot.toNat = 256 + (s.sp.toNat + 1) % 256) :
    s.pulled = s.read slot := by
  have e : s.afterPull.stackSlot = slot := by
    apply BitVec.eq_of_toNat_eq
    rw [State.stackSlot_toNat, h, State.afterPull_sp, BitVec.toNat_add]
    rfl
  rw [State.pulled, e]
  rfl

end Sys2Proof.Machine
end

