-- ==== Sys2Proof/Laws/Operands.lean ====
section
/-! SUPPORT. The effective addresses and targets as numbers. -/

namespace Sys2Proof.Machine

theorem eaZp_toNat (z : Byte) : (eaZp z).toNat = z.toNat := zext16_toNat z

theorem eaZpx_toNat (z : Byte) (s : State) : (eaZpx z s).toNat = (z.toNat + s.x.toNat) % 256 := by
  rw [eaZpx, zext16_toNat, BitVec.toNat_add]

theorem eaZpy_toNat (z : Byte) (s : State) : (eaZpy z s).toNat = (z.toNat + s.y.toNat) % 256 := by
  rw [eaZpy, zext16_toNat, BitVec.toNat_add]

theorem eaAbsx_toNat (w : Addr) (s : State) : (eaAbsx w s).toNat = (w.toNat + s.x.toNat) % 65536 := by
  rw [eaAbsx, BitVec.toNat_add, zext16_toNat]

theorem eaAbsy_toNat (w : Addr) (s : State) : (eaAbsy w s).toNat = (w.toNat + s.y.toNat) % 65536 := by
  rw [eaAbsy, BitVec.toNat_add, zext16_toNat]

/-- The relative target stays in the page of the opcode (41_addressing_modes.md R170). -/
theorem targetRel_halves (r : Byte) (s : State) :
    highByte (targetRel r s) = highByte s.pc ∧ lowByte (targetRel r s) = lowByte s.pc + r := by
  simp [targetRel]

/-- Reads, and so every effective address, depend on X, Y and the memory alone. -/
theorem zeroPagePair_congr {s t : State} (h : s.mem = t.mem) (slot : Byte) : s.zeroPagePair slot = t.zeroPagePair slot := by
  simp [State.zeroPagePair, State.read_congr h]

end Sys2Proof.Machine
end

