-- ==== Sys2Proof/Laws/Families.lean ====
section
/-! SUPPORT. One lemma for each operation that several meanings share: the whole next state as one record, so that a proof
about an instruction cites it instead of unfolding the updates. -/

namespace Sys2Proof.Machine

theorem adc_eq (m : Byte) (length : Nat) (s : State) : adc m length s =
    { s with
      a := (add8 s.a m s.p.c).result
      p := { s.p with
        c := (add8 s.a m s.p.c).carry, v := (add8 s.a m s.p.c).overflow, z := (add8 s.a m s.p.c).result == 0#8, n := (add8 s.a m s.p.c).result.msb }
      pc := s.pc + BitVec.ofNat 16 length } := by
  exact rfl

theorem sbc_eq (m : Byte) (length : Nat) (s : State) : sbc m length s =
    { s with
      a := (add8 s.a (~~~m) s.p.c).result
      p := { s.p with
        c := (add8 s.a (~~~m) s.p.c).carry, v := (add8 s.a (~~~m) s.p.c).overflow, z := (add8 s.a (~~~m) s.p.c).result == 0#8, n := (add8 s.a (~~~m) s.p.c).result.msb }
      pc := s.pc + BitVec.ofNat 16 length } := by
  exact rfl

theorem cmp_eq (m : Byte) (length : Nat) (s : State) : cmp m length s =
    { s with
      p := { s.p with c := decide (m.toNat ≤ s.a.toNat), z := s.a == m, n := (s.a - m).msb }
      pc := s.pc + BitVec.ofNat 16 length } := by
  exact rfl

theorem cpx_eq (m : Byte) (length : Nat) (s : State) : cpx m length s =
    { s with
      p := { s.p with c := decide (m.toNat ≤ s.x.toNat), z := s.x == m, n := (s.x - m).msb }
      pc := s.pc + BitVec.ofNat 16 length } := by
  exact rfl

theorem cpy_eq (m : Byte) (length : Nat) (s : State) : cpy m length s =
    { s with
      p := { s.p with c := decide (m.toNat ≤ s.y.toNat), z := s.y == m, n := (s.y - m).msb }
      pc := s.pc + BitVec.ofNat 16 length } := by
  exact rfl

theorem inc_eq (ea : Addr) (length : Nat) (s : State) : inc ea length s =
    { s with
      mem := Memory.write s.mem ea.toNat (s.read ea + 1#8)
      p := { s.p with z := s.read ea + 1#8 == 0#8, n := (s.read ea + 1#8).msb }
      pc := s.pc + BitVec.ofNat 16 length } := by
  exact rfl

theorem dec_eq (ea : Addr) (length : Nat) (s : State) : dec ea length s =
    { s with
      mem := Memory.write s.mem ea.toNat (s.read ea - 1#8)
      p := { s.p with z := s.read ea - 1#8 == 0#8, n := (s.read ea - 1#8).msb }
      pc := s.pc + BitVec.ofNat 16 length } := by
  exact rfl

theorem aslA_eq (s : State) : aslA s =
    { s with
      a := (asl8 s.a).result
      p := { s.p with c := (asl8 s.a).carry, z := (asl8 s.a).result == 0#8, n := (asl8 s.a).result.msb }
      pc := s.pc + 1#16 } := by
  exact rfl

theorem aslM_eq (ea : Addr) (length : Nat) (s : State) : aslM ea length s =
    { s with
      mem := Memory.write s.mem ea.toNat (asl8 (s.read ea)).result
      p := { s.p with c := (asl8 (s.read ea)).carry, z := (asl8 (s.read ea)).result == 0#8, n := (asl8 (s.read ea)).result.msb }
      pc := s.pc + BitVec.ofNat 16 length } := by
  exact rfl

theorem lsrA_eq (s : State) : lsrA s =
    { s with
      a := (lsr8 s.a).result
      p := { s.p with c := (lsr8 s.a).carry, z := (lsr8 s.a).result == 0#8, n := (lsr8 s.a).result.msb }
      pc := s.pc + 1#16 } := by
  exact rfl

theorem lsrM_eq (ea : Addr) (length : Nat) (s : State) : lsrM ea length s =
    { s with
      mem := Memory.write s.mem ea.toNat (lsr8 (s.read ea)).result
      p := { s.p with c := (lsr8 (s.read ea)).carry, z := (lsr8 (s.read ea)).result == 0#8, n := (lsr8 (s.read ea)).result.msb }
      pc := s.pc + BitVec.ofNat 16 length } := by
  exact rfl

theorem rolA_eq (s : State) : rolA s =
    { s with
      a := (rol8 s.a s.p.c).result
      p := { s.p with c := (rol8 s.a s.p.c).carry, z := (rol8 s.a s.p.c).result == 0#8, n := (rol8 s.a s.p.c).result.msb }
      pc := s.pc + 1#16 } := by
  exact rfl

theorem rolM_eq (ea : Addr) (length : Nat) (s : State) : rolM ea length s =
    { s with
      mem := Memory.write s.mem ea.toNat (rol8 (s.read ea) s.p.c).result
      p := { s.p with c := (rol8 (s.read ea) s.p.c).carry, z := (rol8 (s.read ea) s.p.c).result == 0#8, n := (rol8 (s.read ea) s.p.c).result.msb }
      pc := s.pc + BitVec.ofNat 16 length } := by
  exact rfl

theorem rorA_eq (s : State) : rorA s =
    { s with
      a := (ror8 s.a s.p.c).result
      p := { s.p with c := (ror8 s.a s.p.c).carry, z := (ror8 s.a s.p.c).result == 0#8, n := (ror8 s.a s.p.c).result.msb }
      pc := s.pc + 1#16 } := by
  exact rfl

theorem rorM_eq (ea : Addr) (length : Nat) (s : State) : rorM ea length s =
    { s with
      mem := Memory.write s.mem ea.toNat (ror8 (s.read ea) s.p.c).result
      p := { s.p with c := (ror8 (s.read ea) s.p.c).carry, z := (ror8 (s.read ea) s.p.c).result == 0#8, n := (ror8 (s.read ea) s.p.c).result.msb }
      pc := s.pc + BitVec.ofNat 16 length } := by
  exact rfl

theorem andA_eq (m : Byte) (length : Nat) (s : State) : andA m length s =
    { s with
      a := s.a &&& m
      p := { s.p with z := s.a &&& m == 0#8, n := (s.a &&& m).msb }
      pc := s.pc + BitVec.ofNat 16 length } := by
  exact rfl

theorem oraA_eq (m : Byte) (length : Nat) (s : State) : oraA m length s =
    { s with
      a := s.a ||| m
      p := { s.p with z := s.a ||| m == 0#8, n := (s.a ||| m).msb }
      pc := s.pc + BitVec.ofNat 16 length } := by
  exact rfl

theorem eorA_eq (m : Byte) (length : Nat) (s : State) : eorA m length s =
    { s with
      a := s.a ^^^ m
      p := { s.p with z := s.a ^^^ m == 0#8, n := (s.a ^^^ m).msb }
      pc := s.pc + BitVec.ofNat 16 length } := by
  exact rfl

theorem lda_eq (m : Byte) (length : Nat) (s : State) : lda m length s =
    { s with
      a := m
      p := { s.p with z := m == 0#8, n := (m).msb }
      pc := s.pc + BitVec.ofNat 16 length } := by
  exact rfl

theorem ldx_eq (m : Byte) (length : Nat) (s : State) : ldx m length s =
    { s with
      x := m
      p := { s.p with z := m == 0#8, n := (m).msb }
      pc := s.pc + BitVec.ofNat 16 length } := by
  exact rfl

theorem ldy_eq (m : Byte) (length : Nat) (s : State) : ldy m length s =
    { s with
      y := m
      p := { s.p with z := m == 0#8, n := (m).msb }
      pc := s.pc + BitVec.ofNat 16 length } := by
  exact rfl

theorem bitA_eq (m : Byte) (length : Nat) (s : State) : bitA m length s =
    { s with
      p := { s.p with z := s.a &&& m == 0#8, n := m.getLsbD 7, v := m.getLsbD 6 }
      pc := s.pc + BitVec.ofNat 16 length } := by
  exact rfl

theorem sta_eq (ea : Addr) (length : Nat) (s : State) : sta ea length s =
    { s with
      mem := Memory.write s.mem ea.toNat s.a
      pc := s.pc + BitVec.ofNat 16 length } := by
  exact rfl

theorem stx_eq (ea : Addr) (length : Nat) (s : State) : stx ea length s =
    { s with
      mem := Memory.write s.mem ea.toNat s.x
      pc := s.pc + BitVec.ofNat 16 length } := by
  exact rfl

theorem sty_eq (ea : Addr) (length : Nat) (s : State) : sty ea length s =
    { s with
      mem := Memory.write s.mem ea.toNat s.y
      pc := s.pc + BitVec.ofNat 16 length } := by
  exact rfl

/-- A branch changes PC only (44_branch_jump.md R260). -/
theorem branch_eq (taken : Bool) (r : Byte) (s : State) :
    branch taken r s = { s with pc := if taken then targetRel r s else s.pc + 2#16 } := by
  cases taken
  · exact rfl
  · exact rfl

/-! What a read gives after the operations that store. -/

theorem inc_read (ea : Addr) (length : Nat) (s : State) (addr : Addr) :
    (inc ea length s).read addr = if addr = ea then s.read ea + 1#8 else s.read addr := by
  rw [inc_eq]
  exact State.read_write s ea addr _

theorem dec_read (ea : Addr) (length : Nat) (s : State) (addr : Addr) :
    (dec ea length s).read addr = if addr = ea then s.read ea - 1#8 else s.read addr := by
  rw [dec_eq]
  exact State.read_write s ea addr _

theorem aslM_read (ea : Addr) (length : Nat) (s : State) (addr : Addr) :
    (aslM ea length s).read addr = if addr = ea then (asl8 (s.read ea)).result else s.read addr := by
  rw [aslM_eq]
  exact State.read_write s ea addr _

theorem lsrM_read (ea : Addr) (length : Nat) (s : State) (addr : Addr) :
    (lsrM ea length s).read addr = if addr = ea then (lsr8 (s.read ea)).result else s.read addr := by
  rw [lsrM_eq]
  exact State.read_write s ea addr _

theorem rolM_read (ea : Addr) (length : Nat) (s : State) (addr : Addr) :
    (rolM ea length s).read addr = if addr = ea then (rol8 (s.read ea) s.p.c).result else s.read addr := by
  rw [rolM_eq]
  exact State.read_write s ea addr _

theorem rorM_read (ea : Addr) (length : Nat) (s : State) (addr : Addr) :
    (rorM ea length s).read addr = if addr = ea then (ror8 (s.read ea) s.p.c).result else s.read addr := by
  rw [rorM_eq]
  exact State.read_write s ea addr _

theorem sta_read (ea : Addr) (length : Nat) (s : State) (addr : Addr) :
    (sta ea length s).read addr = if addr = ea then s.a else s.read addr := by
  rw [sta_eq]
  exact State.read_write s ea addr _

theorem stx_read (ea : Addr) (length : Nat) (s : State) (addr : Addr) :
    (stx ea length s).read addr = if addr = ea then s.x else s.read addr := by
  rw [stx_eq]
  exact State.read_write s ea addr _

theorem sty_read (ea : Addr) (length : Nat) (s : State) (addr : Addr) :
    (sty ea length s).read addr = if addr = ea then s.y else s.read addr := by
  rw [sty_eq]
  exact State.read_write s ea addr _

/-! ### Bytes as numbers -/

theorem msb_iff (v : Byte) : v.msb = decide (128 ≤ v.toNat) := by
  rw [BitVec.msb_eq_decide]

theorem beq_zero_iff (v : Byte) : (v == 0#8) = decide (v.toNat = 0) := by
  have h : v = 0#8 ↔ v.toNat = 0 := ⟨fun e => by simp [e], fun e => BitVec.eq_of_toNat_eq (by simpa using e)⟩
  by_cases g : v = 0#8
  · simp [g]
  · have n : v.toNat ≠ 0 := fun e => g (h.mpr e)
    simp [g, n]

end Sys2Proof.Machine
end

