-- ==== Sys2Proof/Laws/Exec.lean ====
section
/-! SUPPORT. The fields of every shared operation's next state, and `exec` constructor by constructor as the operation it
calls, each true by rfl: simp rewrites with them where unfolding would compare whole states. -/

namespace Sys2Proof.Machine

@[simp] theorem adc_a (m : Byte) (length : Nat) (s : State) : (adc m length s).a = (add8 s.a m s.p.c).result := by
  rw [adc_eq]
@[simp] theorem adc_x (m : Byte) (length : Nat) (s : State) : (adc m length s).x = s.x := by
  rw [adc_eq]
@[simp] theorem adc_y (m : Byte) (length : Nat) (s : State) : (adc m length s).y = s.y := by
  rw [adc_eq]
@[simp] theorem adc_sp (m : Byte) (length : Nat) (s : State) : (adc m length s).sp = s.sp := by
  rw [adc_eq]
@[simp] theorem adc_pc (m : Byte) (length : Nat) (s : State) : (adc m length s).pc = s.pc + BitVec.ofNat 16 length := by
  rw [adc_eq]
@[simp] theorem adc_p (m : Byte) (length : Nat) (s : State) : (adc m length s).p = { s.p with c := (add8 s.a m s.p.c).carry, v := (add8 s.a m s.p.c).overflow, z := (add8 s.a m s.p.c).result == 0#8, n := (add8 s.a m s.p.c).result.msb } := by
  rw [adc_eq]
@[simp] theorem adc_mem (m : Byte) (length : Nat) (s : State) : (adc m length s).mem = s.mem := by
  rw [adc_eq]
@[simp] theorem adc_running (m : Byte) (length : Nat) (s : State) : (adc m length s).running = s.running := by
  rw [adc_eq]
@[simp] theorem adc_halt (m : Byte) (length : Nat) (s : State) : (adc m length s).halt = s.halt := by
  rw [adc_eq]
@[simp] theorem adc_hostStops (m : Byte) (length : Nat) (s : State) : (adc m length s).hostStops = s.hostStops := by
  rw [adc_eq]

@[simp] theorem sbc_a (m : Byte) (length : Nat) (s : State) : (sbc m length s).a = (add8 s.a (~~~m) s.p.c).result := by
  rw [sbc_eq]
@[simp] theorem sbc_x (m : Byte) (length : Nat) (s : State) : (sbc m length s).x = s.x := by
  rw [sbc_eq]
@[simp] theorem sbc_y (m : Byte) (length : Nat) (s : State) : (sbc m length s).y = s.y := by
  rw [sbc_eq]
@[simp] theorem sbc_sp (m : Byte) (length : Nat) (s : State) : (sbc m length s).sp = s.sp := by
  rw [sbc_eq]
@[simp] theorem sbc_pc (m : Byte) (length : Nat) (s : State) : (sbc m length s).pc = s.pc + BitVec.ofNat 16 length := by
  rw [sbc_eq]
@[simp] theorem sbc_p (m : Byte) (length : Nat) (s : State) : (sbc m length s).p = { s.p with c := (add8 s.a (~~~m) s.p.c).carry, v := (add8 s.a (~~~m) s.p.c).overflow, z := (add8 s.a (~~~m) s.p.c).result == 0#8, n := (add8 s.a (~~~m) s.p.c).result.msb } := by
  rw [sbc_eq]
@[simp] theorem sbc_mem (m : Byte) (length : Nat) (s : State) : (sbc m length s).mem = s.mem := by
  rw [sbc_eq]
@[simp] theorem sbc_running (m : Byte) (length : Nat) (s : State) : (sbc m length s).running = s.running := by
  rw [sbc_eq]
@[simp] theorem sbc_halt (m : Byte) (length : Nat) (s : State) : (sbc m length s).halt = s.halt := by
  rw [sbc_eq]
@[simp] theorem sbc_hostStops (m : Byte) (length : Nat) (s : State) : (sbc m length s).hostStops = s.hostStops := by
  rw [sbc_eq]

@[simp] theorem cmp_a (m : Byte) (length : Nat) (s : State) : (cmp m length s).a = s.a := by
  rw [cmp_eq]
@[simp] theorem cmp_x (m : Byte) (length : Nat) (s : State) : (cmp m length s).x = s.x := by
  rw [cmp_eq]
@[simp] theorem cmp_y (m : Byte) (length : Nat) (s : State) : (cmp m length s).y = s.y := by
  rw [cmp_eq]
@[simp] theorem cmp_sp (m : Byte) (length : Nat) (s : State) : (cmp m length s).sp = s.sp := by
  rw [cmp_eq]
@[simp] theorem cmp_pc (m : Byte) (length : Nat) (s : State) : (cmp m length s).pc = s.pc + BitVec.ofNat 16 length := by
  rw [cmp_eq]
@[simp] theorem cmp_p (m : Byte) (length : Nat) (s : State) : (cmp m length s).p = { s.p with c := decide (m.toNat ≤ s.a.toNat), z := s.a == m, n := (s.a - m).msb } := by
  rw [cmp_eq]
@[simp] theorem cmp_mem (m : Byte) (length : Nat) (s : State) : (cmp m length s).mem = s.mem := by
  rw [cmp_eq]
@[simp] theorem cmp_running (m : Byte) (length : Nat) (s : State) : (cmp m length s).running = s.running := by
  rw [cmp_eq]
@[simp] theorem cmp_halt (m : Byte) (length : Nat) (s : State) : (cmp m length s).halt = s.halt := by
  rw [cmp_eq]
@[simp] theorem cmp_hostStops (m : Byte) (length : Nat) (s : State) : (cmp m length s).hostStops = s.hostStops := by
  rw [cmp_eq]

@[simp] theorem cpx_a (m : Byte) (length : Nat) (s : State) : (cpx m length s).a = s.a := by
  rw [cpx_eq]
@[simp] theorem cpx_x (m : Byte) (length : Nat) (s : State) : (cpx m length s).x = s.x := by
  rw [cpx_eq]
@[simp] theorem cpx_y (m : Byte) (length : Nat) (s : State) : (cpx m length s).y = s.y := by
  rw [cpx_eq]
@[simp] theorem cpx_sp (m : Byte) (length : Nat) (s : State) : (cpx m length s).sp = s.sp := by
  rw [cpx_eq]
@[simp] theorem cpx_pc (m : Byte) (length : Nat) (s : State) : (cpx m length s).pc = s.pc + BitVec.ofNat 16 length := by
  rw [cpx_eq]
@[simp] theorem cpx_p (m : Byte) (length : Nat) (s : State) : (cpx m length s).p = { s.p with c := decide (m.toNat ≤ s.x.toNat), z := s.x == m, n := (s.x - m).msb } := by
  rw [cpx_eq]
@[simp] theorem cpx_mem (m : Byte) (length : Nat) (s : State) : (cpx m length s).mem = s.mem := by
  rw [cpx_eq]
@[simp] theorem cpx_running (m : Byte) (length : Nat) (s : State) : (cpx m length s).running = s.running := by
  rw [cpx_eq]
@[simp] theorem cpx_halt (m : Byte) (length : Nat) (s : State) : (cpx m length s).halt = s.halt := by
  rw [cpx_eq]
@[simp] theorem cpx_hostStops (m : Byte) (length : Nat) (s : State) : (cpx m length s).hostStops = s.hostStops := by
  rw [cpx_eq]

@[simp] theorem cpy_a (m : Byte) (length : Nat) (s : State) : (cpy m length s).a = s.a := by
  rw [cpy_eq]
@[simp] theorem cpy_x (m : Byte) (length : Nat) (s : State) : (cpy m length s).x = s.x := by
  rw [cpy_eq]
@[simp] theorem cpy_y (m : Byte) (length : Nat) (s : State) : (cpy m length s).y = s.y := by
  rw [cpy_eq]
@[simp] theorem cpy_sp (m : Byte) (length : Nat) (s : State) : (cpy m length s).sp = s.sp := by
  rw [cpy_eq]
@[simp] theorem cpy_pc (m : Byte) (length : Nat) (s : State) : (cpy m length s).pc = s.pc + BitVec.ofNat 16 length := by
  rw [cpy_eq]
@[simp] theorem cpy_p (m : Byte) (length : Nat) (s : State) : (cpy m length s).p = { s.p with c := decide (m.toNat ≤ s.y.toNat), z := s.y == m, n := (s.y - m).msb } := by
  rw [cpy_eq]
@[simp] theorem cpy_mem (m : Byte) (length : Nat) (s : State) : (cpy m length s).mem = s.mem := by
  rw [cpy_eq]
@[simp] theorem cpy_running (m : Byte) (length : Nat) (s : State) : (cpy m length s).running = s.running := by
  rw [cpy_eq]
@[simp] theorem cpy_halt (m : Byte) (length : Nat) (s : State) : (cpy m length s).halt = s.halt := by
  rw [cpy_eq]
@[simp] theorem cpy_hostStops (m : Byte) (length : Nat) (s : State) : (cpy m length s).hostStops = s.hostStops := by
  rw [cpy_eq]

@[simp] theorem inc_a (ea : Addr) (length : Nat) (s : State) : (inc ea length s).a = s.a := by
  rw [inc_eq]
@[simp] theorem inc_x (ea : Addr) (length : Nat) (s : State) : (inc ea length s).x = s.x := by
  rw [inc_eq]
@[simp] theorem inc_y (ea : Addr) (length : Nat) (s : State) : (inc ea length s).y = s.y := by
  rw [inc_eq]
@[simp] theorem inc_sp (ea : Addr) (length : Nat) (s : State) : (inc ea length s).sp = s.sp := by
  rw [inc_eq]
@[simp] theorem inc_pc (ea : Addr) (length : Nat) (s : State) : (inc ea length s).pc = s.pc + BitVec.ofNat 16 length := by
  rw [inc_eq]
@[simp] theorem inc_p (ea : Addr) (length : Nat) (s : State) : (inc ea length s).p = { s.p with z := s.read ea + 1#8 == 0#8, n := (s.read ea + 1#8).msb } := by
  rw [inc_eq]
@[simp] theorem inc_mem (ea : Addr) (length : Nat) (s : State) : (inc ea length s).mem = Memory.write s.mem ea.toNat (s.read ea + 1#8) := by
  rw [inc_eq]
@[simp] theorem inc_running (ea : Addr) (length : Nat) (s : State) : (inc ea length s).running = s.running := by
  rw [inc_eq]
@[simp] theorem inc_halt (ea : Addr) (length : Nat) (s : State) : (inc ea length s).halt = s.halt := by
  rw [inc_eq]
@[simp] theorem inc_hostStops (ea : Addr) (length : Nat) (s : State) : (inc ea length s).hostStops = s.hostStops := by
  rw [inc_eq]

@[simp] theorem dec_a (ea : Addr) (length : Nat) (s : State) : (dec ea length s).a = s.a := by
  rw [dec_eq]
@[simp] theorem dec_x (ea : Addr) (length : Nat) (s : State) : (dec ea length s).x = s.x := by
  rw [dec_eq]
@[simp] theorem dec_y (ea : Addr) (length : Nat) (s : State) : (dec ea length s).y = s.y := by
  rw [dec_eq]
@[simp] theorem dec_sp (ea : Addr) (length : Nat) (s : State) : (dec ea length s).sp = s.sp := by
  rw [dec_eq]
@[simp] theorem dec_pc (ea : Addr) (length : Nat) (s : State) : (dec ea length s).pc = s.pc + BitVec.ofNat 16 length := by
  rw [dec_eq]
@[simp] theorem dec_p (ea : Addr) (length : Nat) (s : State) : (dec ea length s).p = { s.p with z := s.read ea - 1#8 == 0#8, n := (s.read ea - 1#8).msb } := by
  rw [dec_eq]
@[simp] theorem dec_mem (ea : Addr) (length : Nat) (s : State) : (dec ea length s).mem = Memory.write s.mem ea.toNat (s.read ea - 1#8) := by
  rw [dec_eq]
@[simp] theorem dec_running (ea : Addr) (length : Nat) (s : State) : (dec ea length s).running = s.running := by
  rw [dec_eq]
@[simp] theorem dec_halt (ea : Addr) (length : Nat) (s : State) : (dec ea length s).halt = s.halt := by
  rw [dec_eq]
@[simp] theorem dec_hostStops (ea : Addr) (length : Nat) (s : State) : (dec ea length s).hostStops = s.hostStops := by
  rw [dec_eq]

@[simp] theorem aslA_a (s : State) : (aslA s).a = (asl8 s.a).result := by
  rw [aslA_eq]
@[simp] theorem aslA_x (s : State) : (aslA s).x = s.x := by
  rw [aslA_eq]
@[simp] theorem aslA_y (s : State) : (aslA s).y = s.y := by
  rw [aslA_eq]
@[simp] theorem aslA_sp (s : State) : (aslA s).sp = s.sp := by
  rw [aslA_eq]
@[simp] theorem aslA_pc (s : State) : (aslA s).pc = s.pc + 1#16 := by
  rw [aslA_eq]
@[simp] theorem aslA_p (s : State) : (aslA s).p = { s.p with c := (asl8 s.a).carry, z := (asl8 s.a).result == 0#8, n := (asl8 s.a).result.msb } := by
  rw [aslA_eq]
@[simp] theorem aslA_mem (s : State) : (aslA s).mem = s.mem := by
  rw [aslA_eq]
@[simp] theorem aslA_running (s : State) : (aslA s).running = s.running := by
  rw [aslA_eq]
@[simp] theorem aslA_halt (s : State) : (aslA s).halt = s.halt := by
  rw [aslA_eq]
@[simp] theorem aslA_hostStops (s : State) : (aslA s).hostStops = s.hostStops := by
  rw [aslA_eq]

@[simp] theorem aslM_a (ea : Addr) (length : Nat) (s : State) : (aslM ea length s).a = s.a := by
  rw [aslM_eq]
@[simp] theorem aslM_x (ea : Addr) (length : Nat) (s : State) : (aslM ea length s).x = s.x := by
  rw [aslM_eq]
@[simp] theorem aslM_y (ea : Addr) (length : Nat) (s : State) : (aslM ea length s).y = s.y := by
  rw [aslM_eq]
@[simp] theorem aslM_sp (ea : Addr) (length : Nat) (s : State) : (aslM ea length s).sp = s.sp := by
  rw [aslM_eq]
@[simp] theorem aslM_pc (ea : Addr) (length : Nat) (s : State) : (aslM ea length s).pc = s.pc + BitVec.ofNat 16 length := by
  rw [aslM_eq]
@[simp] theorem aslM_p (ea : Addr) (length : Nat) (s : State) : (aslM ea length s).p = { s.p with c := (asl8 (s.read ea)).carry, z := (asl8 (s.read ea)).result == 0#8, n := (asl8 (s.read ea)).result.msb } := by
  rw [aslM_eq]
@[simp] theorem aslM_mem (ea : Addr) (length : Nat) (s : State) : (aslM ea length s).mem = Memory.write s.mem ea.toNat (asl8 (s.read ea)).result := by
  rw [aslM_eq]
@[simp] theorem aslM_running (ea : Addr) (length : Nat) (s : State) : (aslM ea length s).running = s.running := by
  rw [aslM_eq]
@[simp] theorem aslM_halt (ea : Addr) (length : Nat) (s : State) : (aslM ea length s).halt = s.halt := by
  rw [aslM_eq]
@[simp] theorem aslM_hostStops (ea : Addr) (length : Nat) (s : State) : (aslM ea length s).hostStops = s.hostStops := by
  rw [aslM_eq]

@[simp] theorem lsrA_a (s : State) : (lsrA s).a = (lsr8 s.a).result := by
  rw [lsrA_eq]
@[simp] theorem lsrA_x (s : State) : (lsrA s).x = s.x := by
  rw [lsrA_eq]
@[simp] theorem lsrA_y (s : State) : (lsrA s).y = s.y := by
  rw [lsrA_eq]
@[simp] theorem lsrA_sp (s : State) : (lsrA s).sp = s.sp := by
  rw [lsrA_eq]
@[simp] theorem lsrA_pc (s : State) : (lsrA s).pc = s.pc + 1#16 := by
  rw [lsrA_eq]
@[simp] theorem lsrA_p (s : State) : (lsrA s).p = { s.p with c := (lsr8 s.a).carry, z := (lsr8 s.a).result == 0#8, n := (lsr8 s.a).result.msb } := by
  rw [lsrA_eq]
@[simp] theorem lsrA_mem (s : State) : (lsrA s).mem = s.mem := by
  rw [lsrA_eq]
@[simp] theorem lsrA_running (s : State) : (lsrA s).running = s.running := by
  rw [lsrA_eq]
@[simp] theorem lsrA_halt (s : State) : (lsrA s).halt = s.halt := by
  rw [lsrA_eq]
@[simp] theorem lsrA_hostStops (s : State) : (lsrA s).hostStops = s.hostStops := by
  rw [lsrA_eq]

@[simp] theorem lsrM_a (ea : Addr) (length : Nat) (s : State) : (lsrM ea length s).a = s.a := by
  rw [lsrM_eq]
@[simp] theorem lsrM_x (ea : Addr) (length : Nat) (s : State) : (lsrM ea length s).x = s.x := by
  rw [lsrM_eq]
@[simp] theorem lsrM_y (ea : Addr) (length : Nat) (s : State) : (lsrM ea length s).y = s.y := by
  rw [lsrM_eq]
@[simp] theorem lsrM_sp (ea : Addr) (length : Nat) (s : State) : (lsrM ea length s).sp = s.sp := by
  rw [lsrM_eq]
@[simp] theorem lsrM_pc (ea : Addr) (length : Nat) (s : State) : (lsrM ea length s).pc = s.pc + BitVec.ofNat 16 length := by
  rw [lsrM_eq]
@[simp] theorem lsrM_p (ea : Addr) (length : Nat) (s : State) : (lsrM ea length s).p = { s.p with c := (lsr8 (s.read ea)).carry, z := (lsr8 (s.read ea)).result == 0#8, n := (lsr8 (s.read ea)).result.msb } := by
  rw [lsrM_eq]
@[simp] theorem lsrM_mem (ea : Addr) (length : Nat) (s : State) : (lsrM ea length s).mem = Memory.write s.mem ea.toNat (lsr8 (s.read ea)).result := by
  rw [lsrM_eq]
@[simp] theorem lsrM_running (ea : Addr) (length : Nat) (s : State) : (lsrM ea length s).running = s.running := by
  rw [lsrM_eq]
@[simp] theorem lsrM_halt (ea : Addr) (length : Nat) (s : State) : (lsrM ea length s).halt = s.halt := by
  rw [lsrM_eq]
@[simp] theorem lsrM_hostStops (ea : Addr) (length : Nat) (s : State) : (lsrM ea length s).hostStops = s.hostStops := by
  rw [lsrM_eq]

@[simp] theorem rolA_a (s : State) : (rolA s).a = (rol8 s.a s.p.c).result := by
  rw [rolA_eq]
@[simp] theorem rolA_x (s : State) : (rolA s).x = s.x := by
  rw [rolA_eq]
@[simp] theorem rolA_y (s : State) : (rolA s).y = s.y := by
  rw [rolA_eq]
@[simp] theorem rolA_sp (s : State) : (rolA s).sp = s.sp := by
  rw [rolA_eq]
@[simp] theorem rolA_pc (s : State) : (rolA s).pc = s.pc + 1#16 := by
  rw [rolA_eq]
@[simp] theorem rolA_p (s : State) : (rolA s).p = { s.p with c := (rol8 s.a s.p.c).carry, z := (rol8 s.a s.p.c).result == 0#8, n := (rol8 s.a s.p.c).result.msb } := by
  rw [rolA_eq]
@[simp] theorem rolA_mem (s : State) : (rolA s).mem = s.mem := by
  rw [rolA_eq]
@[simp] theorem rolA_running (s : State) : (rolA s).running = s.running := by
  rw [rolA_eq]
@[simp] theorem rolA_halt (s : State) : (rolA s).halt = s.halt := by
  rw [rolA_eq]
@[simp] theorem rolA_hostStops (s : State) : (rolA s).hostStops = s.hostStops := by
  rw [rolA_eq]

@[simp] theorem rolM_a (ea : Addr) (length : Nat) (s : State) : (rolM ea length s).a = s.a := by
  rw [rolM_eq]
@[simp] theorem rolM_x (ea : Addr) (length : Nat) (s : State) : (rolM ea length s).x = s.x := by
  rw [rolM_eq]
@[simp] theorem rolM_y (ea : Addr) (length : Nat) (s : State) : (rolM ea length s).y = s.y := by
  rw [rolM_eq]
@[simp] theorem rolM_sp (ea : Addr) (length : Nat) (s : State) : (rolM ea length s).sp = s.sp := by
  rw [rolM_eq]
@[simp] theorem rolM_pc (ea : Addr) (length : Nat) (s : State) : (rolM ea length s).pc = s.pc + BitVec.ofNat 16 length := by
  rw [rolM_eq]
@[simp] theorem rolM_p (ea : Addr) (length : Nat) (s : State) : (rolM ea length s).p = { s.p with c := (rol8 (s.read ea) s.p.c).carry, z := (rol8 (s.read ea) s.p.c).result == 0#8, n := (rol8 (s.read ea) s.p.c).result.msb } := by
  rw [rolM_eq]
@[simp] theorem rolM_mem (ea : Addr) (length : Nat) (s : State) : (rolM ea length s).mem = Memory.write s.mem ea.toNat (rol8 (s.read ea) s.p.c).result := by
  rw [rolM_eq]
@[simp] theorem rolM_running (ea : Addr) (length : Nat) (s : State) : (rolM ea length s).running = s.running := by
  rw [rolM_eq]
@[simp] theorem rolM_halt (ea : Addr) (length : Nat) (s : State) : (rolM ea length s).halt = s.halt := by
  rw [rolM_eq]
@[simp] theorem rolM_hostStops (ea : Addr) (length : Nat) (s : State) : (rolM ea length s).hostStops = s.hostStops := by
  rw [rolM_eq]

@[simp] theorem rorA_a (s : State) : (rorA s).a = (ror8 s.a s.p.c).result := by
  rw [rorA_eq]
@[simp] theorem rorA_x (s : State) : (rorA s).x = s.x := by
  rw [rorA_eq]
@[simp] theorem rorA_y (s : State) : (rorA s).y = s.y := by
  rw [rorA_eq]
@[simp] theorem rorA_sp (s : State) : (rorA s).sp = s.sp := by
  rw [rorA_eq]
@[simp] theorem rorA_pc (s : State) : (rorA s).pc = s.pc + 1#16 := by
  rw [rorA_eq]
@[simp] theorem rorA_p (s : State) : (rorA s).p = { s.p with c := (ror8 s.a s.p.c).carry, z := (ror8 s.a s.p.c).result == 0#8, n := (ror8 s.a s.p.c).result.msb } := by
  rw [rorA_eq]
@[simp] theorem rorA_mem (s : State) : (rorA s).mem = s.mem := by
  rw [rorA_eq]
@[simp] theorem rorA_running (s : State) : (rorA s).running = s.running := by
  rw [rorA_eq]
@[simp] theorem rorA_halt (s : State) : (rorA s).halt = s.halt := by
  rw [rorA_eq]
@[simp] theorem rorA_hostStops (s : State) : (rorA s).hostStops = s.hostStops := by
  rw [rorA_eq]

@[simp] theorem rorM_a (ea : Addr) (length : Nat) (s : State) : (rorM ea length s).a = s.a := by
  rw [rorM_eq]
@[simp] theorem rorM_x (ea : Addr) (length : Nat) (s : State) : (rorM ea length s).x = s.x := by
  rw [rorM_eq]
@[simp] theorem rorM_y (ea : Addr) (length : Nat) (s : State) : (rorM ea length s).y = s.y := by
  rw [rorM_eq]
@[simp] theorem rorM_sp (ea : Addr) (length : Nat) (s : State) : (rorM ea length s).sp = s.sp := by
  rw [rorM_eq]
@[simp] theorem rorM_pc (ea : Addr) (length : Nat) (s : State) : (rorM ea length s).pc = s.pc + BitVec.ofNat 16 length := by
  rw [rorM_eq]
@[simp] theorem rorM_p (ea : Addr) (length : Nat) (s : State) : (rorM ea length s).p = { s.p with c := (ror8 (s.read ea) s.p.c).carry, z := (ror8 (s.read ea) s.p.c).result == 0#8, n := (ror8 (s.read ea) s.p.c).result.msb } := by
  rw [rorM_eq]
@[simp] theorem rorM_mem (ea : Addr) (length : Nat) (s : State) : (rorM ea length s).mem = Memory.write s.mem ea.toNat (ror8 (s.read ea) s.p.c).result := by
  rw [rorM_eq]
@[simp] theorem rorM_running (ea : Addr) (length : Nat) (s : State) : (rorM ea length s).running = s.running := by
  rw [rorM_eq]
@[simp] theorem rorM_halt (ea : Addr) (length : Nat) (s : State) : (rorM ea length s).halt = s.halt := by
  rw [rorM_eq]
@[simp] theorem rorM_hostStops (ea : Addr) (length : Nat) (s : State) : (rorM ea length s).hostStops = s.hostStops := by
  rw [rorM_eq]

@[simp] theorem andA_a (m : Byte) (length : Nat) (s : State) : (andA m length s).a = s.a &&& m := by
  rw [andA_eq]
@[simp] theorem andA_x (m : Byte) (length : Nat) (s : State) : (andA m length s).x = s.x := by
  rw [andA_eq]
@[simp] theorem andA_y (m : Byte) (length : Nat) (s : State) : (andA m length s).y = s.y := by
  rw [andA_eq]
@[simp] theorem andA_sp (m : Byte) (length : Nat) (s : State) : (andA m length s).sp = s.sp := by
  rw [andA_eq]
@[simp] theorem andA_pc (m : Byte) (length : Nat) (s : State) : (andA m length s).pc = s.pc + BitVec.ofNat 16 length := by
  rw [andA_eq]
@[simp] theorem andA_p (m : Byte) (length : Nat) (s : State) : (andA m length s).p = { s.p with z := s.a &&& m == 0#8, n := (s.a &&& m).msb } := by
  rw [andA_eq]
@[simp] theorem andA_mem (m : Byte) (length : Nat) (s : State) : (andA m length s).mem = s.mem := by
  rw [andA_eq]
@[simp] theorem andA_running (m : Byte) (length : Nat) (s : State) : (andA m length s).running = s.running := by
  rw [andA_eq]
@[simp] theorem andA_halt (m : Byte) (length : Nat) (s : State) : (andA m length s).halt = s.halt := by
  rw [andA_eq]
@[simp] theorem andA_hostStops (m : Byte) (length : Nat) (s : State) : (andA m length s).hostStops = s.hostStops := by
  rw [andA_eq]

@[simp] theorem oraA_a (m : Byte) (length : Nat) (s : State) : (oraA m length s).a = s.a ||| m := by
  rw [oraA_eq]
@[simp] theorem oraA_x (m : Byte) (length : Nat) (s : State) : (oraA m length s).x = s.x := by
  rw [oraA_eq]
@[simp] theorem oraA_y (m : Byte) (length : Nat) (s : State) : (oraA m length s).y = s.y := by
  rw [oraA_eq]
@[simp] theorem oraA_sp (m : Byte) (length : Nat) (s : State) : (oraA m length s).sp = s.sp := by
  rw [oraA_eq]
@[simp] theorem oraA_pc (m : Byte) (length : Nat) (s : State) : (oraA m length s).pc = s.pc + BitVec.ofNat 16 length := by
  rw [oraA_eq]
@[simp] theorem oraA_p (m : Byte) (length : Nat) (s : State) : (oraA m length s).p = { s.p with z := s.a ||| m == 0#8, n := (s.a ||| m).msb } := by
  rw [oraA_eq]
@[simp] theorem oraA_mem (m : Byte) (length : Nat) (s : State) : (oraA m length s).mem = s.mem := by
  rw [oraA_eq]
@[simp] theorem oraA_running (m : Byte) (length : Nat) (s : State) : (oraA m length s).running = s.running := by
  rw [oraA_eq]
@[simp] theorem oraA_halt (m : Byte) (length : Nat) (s : State) : (oraA m length s).halt = s.halt := by
  rw [oraA_eq]
@[simp] theorem oraA_hostStops (m : Byte) (length : Nat) (s : State) : (oraA m length s).hostStops = s.hostStops := by
  rw [oraA_eq]

@[simp] theorem eorA_a (m : Byte) (length : Nat) (s : State) : (eorA m length s).a = s.a ^^^ m := by
  rw [eorA_eq]
@[simp] theorem eorA_x (m : Byte) (length : Nat) (s : State) : (eorA m length s).x = s.x := by
  rw [eorA_eq]
@[simp] theorem eorA_y (m : Byte) (length : Nat) (s : State) : (eorA m length s).y = s.y := by
  rw [eorA_eq]
@[simp] theorem eorA_sp (m : Byte) (length : Nat) (s : State) : (eorA m length s).sp = s.sp := by
  rw [eorA_eq]
@[simp] theorem eorA_pc (m : Byte) (length : Nat) (s : State) : (eorA m length s).pc = s.pc + BitVec.ofNat 16 length := by
  rw [eorA_eq]
@[simp] theorem eorA_p (m : Byte) (length : Nat) (s : State) : (eorA m length s).p = { s.p with z := s.a ^^^ m == 0#8, n := (s.a ^^^ m).msb } := by
  rw [eorA_eq]
@[simp] theorem eorA_mem (m : Byte) (length : Nat) (s : State) : (eorA m length s).mem = s.mem := by
  rw [eorA_eq]
@[simp] theorem eorA_running (m : Byte) (length : Nat) (s : State) : (eorA m length s).running = s.running := by
  rw [eorA_eq]
@[simp] theorem eorA_halt (m : Byte) (length : Nat) (s : State) : (eorA m length s).halt = s.halt := by
  rw [eorA_eq]
@[simp] theorem eorA_hostStops (m : Byte) (length : Nat) (s : State) : (eorA m length s).hostStops = s.hostStops := by
  rw [eorA_eq]

@[simp] theorem lda_a (m : Byte) (length : Nat) (s : State) : (lda m length s).a = m := by
  rw [lda_eq]
@[simp] theorem lda_x (m : Byte) (length : Nat) (s : State) : (lda m length s).x = s.x := by
  rw [lda_eq]
@[simp] theorem lda_y (m : Byte) (length : Nat) (s : State) : (lda m length s).y = s.y := by
  rw [lda_eq]
@[simp] theorem lda_sp (m : Byte) (length : Nat) (s : State) : (lda m length s).sp = s.sp := by
  rw [lda_eq]
@[simp] theorem lda_pc (m : Byte) (length : Nat) (s : State) : (lda m length s).pc = s.pc + BitVec.ofNat 16 length := by
  rw [lda_eq]
@[simp] theorem lda_p (m : Byte) (length : Nat) (s : State) : (lda m length s).p = { s.p with z := m == 0#8, n := (m).msb } := by
  rw [lda_eq]
@[simp] theorem lda_mem (m : Byte) (length : Nat) (s : State) : (lda m length s).mem = s.mem := by
  rw [lda_eq]
@[simp] theorem lda_running (m : Byte) (length : Nat) (s : State) : (lda m length s).running = s.running := by
  rw [lda_eq]
@[simp] theorem lda_halt (m : Byte) (length : Nat) (s : State) : (lda m length s).halt = s.halt := by
  rw [lda_eq]
@[simp] theorem lda_hostStops (m : Byte) (length : Nat) (s : State) : (lda m length s).hostStops = s.hostStops := by
  rw [lda_eq]

@[simp] theorem ldx_a (m : Byte) (length : Nat) (s : State) : (ldx m length s).a = s.a := by
  rw [ldx_eq]
@[simp] theorem ldx_x (m : Byte) (length : Nat) (s : State) : (ldx m length s).x = m := by
  rw [ldx_eq]
@[simp] theorem ldx_y (m : Byte) (length : Nat) (s : State) : (ldx m length s).y = s.y := by
  rw [ldx_eq]
@[simp] theorem ldx_sp (m : Byte) (length : Nat) (s : State) : (ldx m length s).sp = s.sp := by
  rw [ldx_eq]
@[simp] theorem ldx_pc (m : Byte) (length : Nat) (s : State) : (ldx m length s).pc = s.pc + BitVec.ofNat 16 length := by
  rw [ldx_eq]
@[simp] theorem ldx_p (m : Byte) (length : Nat) (s : State) : (ldx m length s).p = { s.p with z := m == 0#8, n := (m).msb } := by
  rw [ldx_eq]
@[simp] theorem ldx_mem (m : Byte) (length : Nat) (s : State) : (ldx m length s).mem = s.mem := by
  rw [ldx_eq]
@[simp] theorem ldx_running (m : Byte) (length : Nat) (s : State) : (ldx m length s).running = s.running := by
  rw [ldx_eq]
@[simp] theorem ldx_halt (m : Byte) (length : Nat) (s : State) : (ldx m length s).halt = s.halt := by
  rw [ldx_eq]
@[simp] theorem ldx_hostStops (m : Byte) (length : Nat) (s : State) : (ldx m length s).hostStops = s.hostStops := by
  rw [ldx_eq]

@[simp] theorem ldy_a (m : Byte) (length : Nat) (s : State) : (ldy m length s).a = s.a := by
  rw [ldy_eq]
@[simp] theorem ldy_x (m : Byte) (length : Nat) (s : State) : (ldy m length s).x = s.x := by
  rw [ldy_eq]
@[simp] theorem ldy_y (m : Byte) (length : Nat) (s : State) : (ldy m length s).y = m := by
  rw [ldy_eq]
@[simp] theorem ldy_sp (m : Byte) (length : Nat) (s : State) : (ldy m length s).sp = s.sp := by
  rw [ldy_eq]
@[simp] theorem ldy_pc (m : Byte) (length : Nat) (s : State) : (ldy m length s).pc = s.pc + BitVec.ofNat 16 length := by
  rw [ldy_eq]
@[simp] theorem ldy_p (m : Byte) (length : Nat) (s : State) : (ldy m length s).p = { s.p with z := m == 0#8, n := (m).msb } := by
  rw [ldy_eq]
@[simp] theorem ldy_mem (m : Byte) (length : Nat) (s : State) : (ldy m length s).mem = s.mem := by
  rw [ldy_eq]
@[simp] theorem ldy_running (m : Byte) (length : Nat) (s : State) : (ldy m length s).running = s.running := by
  rw [ldy_eq]
@[simp] theorem ldy_halt (m : Byte) (length : Nat) (s : State) : (ldy m length s).halt = s.halt := by
  rw [ldy_eq]
@[simp] theorem ldy_hostStops (m : Byte) (length : Nat) (s : State) : (ldy m length s).hostStops = s.hostStops := by
  rw [ldy_eq]

@[simp] theorem bitA_a (m : Byte) (length : Nat) (s : State) : (bitA m length s).a = s.a := by
  rw [bitA_eq]
@[simp] theorem bitA_x (m : Byte) (length : Nat) (s : State) : (bitA m length s).x = s.x := by
  rw [bitA_eq]
@[simp] theorem bitA_y (m : Byte) (length : Nat) (s : State) : (bitA m length s).y = s.y := by
  rw [bitA_eq]
@[simp] theorem bitA_sp (m : Byte) (length : Nat) (s : State) : (bitA m length s).sp = s.sp := by
  rw [bitA_eq]
@[simp] theorem bitA_pc (m : Byte) (length : Nat) (s : State) : (bitA m length s).pc = s.pc + BitVec.ofNat 16 length := by
  rw [bitA_eq]
@[simp] theorem bitA_p (m : Byte) (length : Nat) (s : State) : (bitA m length s).p = { s.p with z := s.a &&& m == 0#8, n := m.getLsbD 7, v := m.getLsbD 6 } := by
  rw [bitA_eq]
@[simp] theorem bitA_mem (m : Byte) (length : Nat) (s : State) : (bitA m length s).mem = s.mem := by
  rw [bitA_eq]
@[simp] theorem bitA_running (m : Byte) (length : Nat) (s : State) : (bitA m length s).running = s.running := by
  rw [bitA_eq]
@[simp] theorem bitA_halt (m : Byte) (length : Nat) (s : State) : (bitA m length s).halt = s.halt := by
  rw [bitA_eq]
@[simp] theorem bitA_hostStops (m : Byte) (length : Nat) (s : State) : (bitA m length s).hostStops = s.hostStops := by
  rw [bitA_eq]

@[simp] theorem sta_a (ea : Addr) (length : Nat) (s : State) : (sta ea length s).a = s.a := by
  rw [sta_eq]
@[simp] theorem sta_x (ea : Addr) (length : Nat) (s : State) : (sta ea length s).x = s.x := by
  rw [sta_eq]
@[simp] theorem sta_y (ea : Addr) (length : Nat) (s : State) : (sta ea length s).y = s.y := by
  rw [sta_eq]
@[simp] theorem sta_sp (ea : Addr) (length : Nat) (s : State) : (sta ea length s).sp = s.sp := by
  rw [sta_eq]
@[simp] theorem sta_pc (ea : Addr) (length : Nat) (s : State) : (sta ea length s).pc = s.pc + BitVec.ofNat 16 length := by
  rw [sta_eq]
@[simp] theorem sta_p (ea : Addr) (length : Nat) (s : State) : (sta ea length s).p = s.p := by
  rw [sta_eq]
@[simp] theorem sta_mem (ea : Addr) (length : Nat) (s : State) : (sta ea length s).mem = Memory.write s.mem ea.toNat s.a := by
  rw [sta_eq]
@[simp] theorem sta_running (ea : Addr) (length : Nat) (s : State) : (sta ea length s).running = s.running := by
  rw [sta_eq]
@[simp] theorem sta_halt (ea : Addr) (length : Nat) (s : State) : (sta ea length s).halt = s.halt := by
  rw [sta_eq]
@[simp] theorem sta_hostStops (ea : Addr) (length : Nat) (s : State) : (sta ea length s).hostStops = s.hostStops := by
  rw [sta_eq]

@[simp] theorem stx_a (ea : Addr) (length : Nat) (s : State) : (stx ea length s).a = s.a := by
  rw [stx_eq]
@[simp] theorem stx_x (ea : Addr) (length : Nat) (s : State) : (stx ea length s).x = s.x := by
  rw [stx_eq]
@[simp] theorem stx_y (ea : Addr) (length : Nat) (s : State) : (stx ea length s).y = s.y := by
  rw [stx_eq]
@[simp] theorem stx_sp (ea : Addr) (length : Nat) (s : State) : (stx ea length s).sp = s.sp := by
  rw [stx_eq]
@[simp] theorem stx_pc (ea : Addr) (length : Nat) (s : State) : (stx ea length s).pc = s.pc + BitVec.ofNat 16 length := by
  rw [stx_eq]
@[simp] theorem stx_p (ea : Addr) (length : Nat) (s : State) : (stx ea length s).p = s.p := by
  rw [stx_eq]
@[simp] theorem stx_mem (ea : Addr) (length : Nat) (s : State) : (stx ea length s).mem = Memory.write s.mem ea.toNat s.x := by
  rw [stx_eq]
@[simp] theorem stx_running (ea : Addr) (length : Nat) (s : State) : (stx ea length s).running = s.running := by
  rw [stx_eq]
@[simp] theorem stx_halt (ea : Addr) (length : Nat) (s : State) : (stx ea length s).halt = s.halt := by
  rw [stx_eq]
@[simp] theorem stx_hostStops (ea : Addr) (length : Nat) (s : State) : (stx ea length s).hostStops = s.hostStops := by
  rw [stx_eq]

@[simp] theorem sty_a (ea : Addr) (length : Nat) (s : State) : (sty ea length s).a = s.a := by
  rw [sty_eq]
@[simp] theorem sty_x (ea : Addr) (length : Nat) (s : State) : (sty ea length s).x = s.x := by
  rw [sty_eq]
@[simp] theorem sty_y (ea : Addr) (length : Nat) (s : State) : (sty ea length s).y = s.y := by
  rw [sty_eq]
@[simp] theorem sty_sp (ea : Addr) (length : Nat) (s : State) : (sty ea length s).sp = s.sp := by
  rw [sty_eq]
@[simp] theorem sty_pc (ea : Addr) (length : Nat) (s : State) : (sty ea length s).pc = s.pc + BitVec.ofNat 16 length := by
  rw [sty_eq]
@[simp] theorem sty_p (ea : Addr) (length : Nat) (s : State) : (sty ea length s).p = s.p := by
  rw [sty_eq]
@[simp] theorem sty_mem (ea : Addr) (length : Nat) (s : State) : (sty ea length s).mem = Memory.write s.mem ea.toNat s.y := by
  rw [sty_eq]
@[simp] theorem sty_running (ea : Addr) (length : Nat) (s : State) : (sty ea length s).running = s.running := by
  rw [sty_eq]
@[simp] theorem sty_halt (ea : Addr) (length : Nat) (s : State) : (sty ea length s).halt = s.halt := by
  rw [sty_eq]
@[simp] theorem sty_hostStops (ea : Addr) (length : Nat) (s : State) : (sty ea length s).hostStops = s.hostStops := by
  rw [sty_eq]

@[simp] theorem branch_a (taken : Bool) (r : Byte) (s : State) : (branch taken r s).a = s.a := by
  rw [branch_eq]
@[simp] theorem branch_x (taken : Bool) (r : Byte) (s : State) : (branch taken r s).x = s.x := by
  rw [branch_eq]
@[simp] theorem branch_y (taken : Bool) (r : Byte) (s : State) : (branch taken r s).y = s.y := by
  rw [branch_eq]
@[simp] theorem branch_sp (taken : Bool) (r : Byte) (s : State) : (branch taken r s).sp = s.sp := by
  rw [branch_eq]
@[simp] theorem branch_pc (taken : Bool) (r : Byte) (s : State) : (branch taken r s).pc = if taken then targetRel r s else s.pc + 2#16 := by
  rw [branch_eq]
@[simp] theorem branch_p (taken : Bool) (r : Byte) (s : State) : (branch taken r s).p = s.p := by
  rw [branch_eq]
@[simp] theorem branch_mem (taken : Bool) (r : Byte) (s : State) : (branch taken r s).mem = s.mem := by
  rw [branch_eq]
@[simp] theorem branch_running (taken : Bool) (r : Byte) (s : State) : (branch taken r s).running = s.running := by
  rw [branch_eq]
@[simp] theorem branch_halt (taken : Bool) (r : Byte) (s : State) : (branch taken r s).halt = s.halt := by
  rw [branch_eq]
@[simp] theorem branch_hostStops (taken : Bool) (r : Byte) (s : State) : (branch taken r s).hostStops = s.hostStops := by
  rw [branch_eq]

/-! ### exec, constructor by constructor -/

@[simp] theorem exec_adcImm (v : Byte) (s : State) : exec (.adcImm v) s = .next (adc v 2 s) := rfl
@[simp] theorem exec_adcZp (z : Byte) (s : State) : exec (.adcZp z) s = .next (adc (s.read (eaZp z)) 2 s) := rfl
@[simp] theorem exec_adcZpx (z : Byte) (s : State) : exec (.adcZpx z) s = .next (adc (s.read (eaZpx z s)) 2 s) := rfl
@[simp] theorem exec_adcAbs (w : Addr) (s : State) : exec (.adcAbs w) s = .next (adc (s.read (eaAbs w)) 3 s) := rfl
@[simp] theorem exec_adcAbsx (w : Addr) (s : State) : exec (.adcAbsx w) s = .next (adc (s.read (eaAbsx w s)) 3 s) := rfl
@[simp] theorem exec_adcAbsy (w : Addr) (s : State) : exec (.adcAbsy w) s = .next (adc (s.read (eaAbsy w s)) 3 s) := rfl
@[simp] theorem exec_adcIndx (z : Byte) (s : State) : exec (.adcIndx z) s = .next (adc (s.read (eaIndx z s)) 2 s) := rfl
@[simp] theorem exec_adcIndy (z : Byte) (s : State) : exec (.adcIndy z) s = .next (adc (s.read (eaIndy z s)) 2 s) := rfl
@[simp] theorem exec_sbcImm (v : Byte) (s : State) : exec (.sbcImm v) s = .next (sbc v 2 s) := rfl
@[simp] theorem exec_sbcZp (z : Byte) (s : State) : exec (.sbcZp z) s = .next (sbc (s.read (eaZp z)) 2 s) := rfl
@[simp] theorem exec_sbcZpx (z : Byte) (s : State) : exec (.sbcZpx z) s = .next (sbc (s.read (eaZpx z s)) 2 s) := rfl
@[simp] theorem exec_sbcAbs (w : Addr) (s : State) : exec (.sbcAbs w) s = .next (sbc (s.read (eaAbs w)) 3 s) := rfl
@[simp] theorem exec_sbcAbsx (w : Addr) (s : State) : exec (.sbcAbsx w) s = .next (sbc (s.read (eaAbsx w s)) 3 s) := rfl
@[simp] theorem exec_sbcAbsy (w : Addr) (s : State) : exec (.sbcAbsy w) s = .next (sbc (s.read (eaAbsy w s)) 3 s) := rfl
@[simp] theorem exec_sbcIndx (z : Byte) (s : State) : exec (.sbcIndx z) s = .next (sbc (s.read (eaIndx z s)) 2 s) := rfl
@[simp] theorem exec_sbcIndy (z : Byte) (s : State) : exec (.sbcIndy z) s = .next (sbc (s.read (eaIndy z s)) 2 s) := rfl
@[simp] theorem exec_cmpImm (v : Byte) (s : State) : exec (.cmpImm v) s = .next (cmp v 2 s) := rfl
@[simp] theorem exec_cmpZp (z : Byte) (s : State) : exec (.cmpZp z) s = .next (cmp (s.read (eaZp z)) 2 s) := rfl
@[simp] theorem exec_cmpZpx (z : Byte) (s : State) : exec (.cmpZpx z) s = .next (cmp (s.read (eaZpx z s)) 2 s) := rfl
@[simp] theorem exec_cmpAbs (w : Addr) (s : State) : exec (.cmpAbs w) s = .next (cmp (s.read (eaAbs w)) 3 s) := rfl
@[simp] theorem exec_cmpAbsx (w : Addr) (s : State) : exec (.cmpAbsx w) s = .next (cmp (s.read (eaAbsx w s)) 3 s) := rfl
@[simp] theorem exec_cmpAbsy (w : Addr) (s : State) : exec (.cmpAbsy w) s = .next (cmp (s.read (eaAbsy w s)) 3 s) := rfl
@[simp] theorem exec_cmpIndx (z : Byte) (s : State) : exec (.cmpIndx z) s = .next (cmp (s.read (eaIndx z s)) 2 s) := rfl
@[simp] theorem exec_cmpIndy (z : Byte) (s : State) : exec (.cmpIndy z) s = .next (cmp (s.read (eaIndy z s)) 2 s) := rfl
@[simp] theorem exec_cpxImm (v : Byte) (s : State) : exec (.cpxImm v) s = .next (cpx v 2 s) := rfl
@[simp] theorem exec_cpxZp (z : Byte) (s : State) : exec (.cpxZp z) s = .next (cpx (s.read (eaZp z)) 2 s) := rfl
@[simp] theorem exec_cpxAbs (w : Addr) (s : State) : exec (.cpxAbs w) s = .next (cpx (s.read (eaAbs w)) 3 s) := rfl
@[simp] theorem exec_cpyImm (v : Byte) (s : State) : exec (.cpyImm v) s = .next (cpy v 2 s) := rfl
@[simp] theorem exec_cpyZp (z : Byte) (s : State) : exec (.cpyZp z) s = .next (cpy (s.read (eaZp z)) 2 s) := rfl
@[simp] theorem exec_cpyAbs (w : Addr) (s : State) : exec (.cpyAbs w) s = .next (cpy (s.read (eaAbs w)) 3 s) := rfl
@[simp] theorem exec_incZp (z : Byte) (s : State) : exec (.incZp z) s = .next (inc (eaZp z) 2 s) := rfl
@[simp] theorem exec_incZpx (z : Byte) (s : State) : exec (.incZpx z) s = .next (inc (eaZpx z s) 2 s) := rfl
@[simp] theorem exec_incAbs (w : Addr) (s : State) : exec (.incAbs w) s = .next (inc (eaAbs w) 3 s) := rfl
@[simp] theorem exec_incAbsx (w : Addr) (s : State) : exec (.incAbsx w) s = .next (inc (eaAbsx w s) 3 s) := rfl
@[simp] theorem exec_decZp (z : Byte) (s : State) : exec (.decZp z) s = .next (dec (eaZp z) 2 s) := rfl
@[simp] theorem exec_decZpx (z : Byte) (s : State) : exec (.decZpx z) s = .next (dec (eaZpx z s) 2 s) := rfl
@[simp] theorem exec_decAbs (w : Addr) (s : State) : exec (.decAbs w) s = .next (dec (eaAbs w) 3 s) := rfl
@[simp] theorem exec_decAbsx (w : Addr) (s : State) : exec (.decAbsx w) s = .next (dec (eaAbsx w s) 3 s) := rfl
@[simp] theorem exec_inx (s : State) : exec (.inx) s = .next (((s.setX (s.x + 1#8)).setNZ (s.x + 1#8)).advance 1) := rfl
@[simp] theorem exec_iny (s : State) : exec (.iny) s = .next (((s.setY (s.y + 1#8)).setNZ (s.y + 1#8)).advance 1) := rfl
@[simp] theorem exec_dex (s : State) : exec (.dex) s = .next (((s.setX (s.x - 1#8)).setNZ (s.x - 1#8)).advance 1) := rfl
@[simp] theorem exec_dey (s : State) : exec (.dey) s = .next (((s.setY (s.y - 1#8)).setNZ (s.y - 1#8)).advance 1) := rfl
@[simp] theorem exec_aslAcc (s : State) : exec (.aslAcc) s = .next (aslA s) := rfl
@[simp] theorem exec_aslZp (z : Byte) (s : State) : exec (.aslZp z) s = .next (aslM (eaZp z) 2 s) := rfl
@[simp] theorem exec_aslZpx (z : Byte) (s : State) : exec (.aslZpx z) s = .next (aslM (eaZpx z s) 2 s) := rfl
@[simp] theorem exec_aslAbs (w : Addr) (s : State) : exec (.aslAbs w) s = .next (aslM (eaAbs w) 3 s) := rfl
@[simp] theorem exec_aslAbsx (w : Addr) (s : State) : exec (.aslAbsx w) s = .next (aslM (eaAbsx w s) 3 s) := rfl
@[simp] theorem exec_lsrAcc (s : State) : exec (.lsrAcc) s = .next (lsrA s) := rfl
@[simp] theorem exec_lsrZp (z : Byte) (s : State) : exec (.lsrZp z) s = .next (lsrM (eaZp z) 2 s) := rfl
@[simp] theorem exec_lsrZpx (z : Byte) (s : State) : exec (.lsrZpx z) s = .next (lsrM (eaZpx z s) 2 s) := rfl
@[simp] theorem exec_lsrAbs (w : Addr) (s : State) : exec (.lsrAbs w) s = .next (lsrM (eaAbs w) 3 s) := rfl
@[simp] theorem exec_lsrAbsx (w : Addr) (s : State) : exec (.lsrAbsx w) s = .next (lsrM (eaAbsx w s) 3 s) := rfl
@[simp] theorem exec_rolAcc (s : State) : exec (.rolAcc) s = .next (rolA s) := rfl
@[simp] theorem exec_rolZp (z : Byte) (s : State) : exec (.rolZp z) s = .next (rolM (eaZp z) 2 s) := rfl
@[simp] theorem exec_rolZpx (z : Byte) (s : State) : exec (.rolZpx z) s = .next (rolM (eaZpx z s) 2 s) := rfl
@[simp] theorem exec_rolAbs (w : Addr) (s : State) : exec (.rolAbs w) s = .next (rolM (eaAbs w) 3 s) := rfl
@[simp] theorem exec_rolAbsx (w : Addr) (s : State) : exec (.rolAbsx w) s = .next (rolM (eaAbsx w s) 3 s) := rfl
@[simp] theorem exec_rorAcc (s : State) : exec (.rorAcc) s = .next (rorA s) := rfl
@[simp] theorem exec_rorZp (z : Byte) (s : State) : exec (.rorZp z) s = .next (rorM (eaZp z) 2 s) := rfl
@[simp] theorem exec_rorZpx (z : Byte) (s : State) : exec (.rorZpx z) s = .next (rorM (eaZpx z s) 2 s) := rfl
@[simp] theorem exec_rorAbs (w : Addr) (s : State) : exec (.rorAbs w) s = .next (rorM (eaAbs w) 3 s) := rfl
@[simp] theorem exec_rorAbsx (w : Addr) (s : State) : exec (.rorAbsx w) s = .next (rorM (eaAbsx w s) 3 s) := rfl
@[simp] theorem exec_andImm (v : Byte) (s : State) : exec (.andImm v) s = .next (andA v 2 s) := rfl
@[simp] theorem exec_andZp (z : Byte) (s : State) : exec (.andZp z) s = .next (andA (s.read (eaZp z)) 2 s) := rfl
@[simp] theorem exec_andZpx (z : Byte) (s : State) : exec (.andZpx z) s = .next (andA (s.read (eaZpx z s)) 2 s) := rfl
@[simp] theorem exec_andAbs (w : Addr) (s : State) : exec (.andAbs w) s = .next (andA (s.read (eaAbs w)) 3 s) := rfl
@[simp] theorem exec_andAbsx (w : Addr) (s : State) : exec (.andAbsx w) s = .next (andA (s.read (eaAbsx w s)) 3 s) := rfl
@[simp] theorem exec_andAbsy (w : Addr) (s : State) : exec (.andAbsy w) s = .next (andA (s.read (eaAbsy w s)) 3 s) := rfl
@[simp] theorem exec_andIndx (z : Byte) (s : State) : exec (.andIndx z) s = .next (andA (s.read (eaIndx z s)) 2 s) := rfl
@[simp] theorem exec_andIndy (z : Byte) (s : State) : exec (.andIndy z) s = .next (andA (s.read (eaIndy z s)) 2 s) := rfl
@[simp] theorem exec_oraImm (v : Byte) (s : State) : exec (.oraImm v) s = .next (oraA v 2 s) := rfl
@[simp] theorem exec_oraZp (z : Byte) (s : State) : exec (.oraZp z) s = .next (oraA (s.read (eaZp z)) 2 s) := rfl
@[simp] theorem exec_oraZpx (z : Byte) (s : State) : exec (.oraZpx z) s = .next (oraA (s.read (eaZpx z s)) 2 s) := rfl
@[simp] theorem exec_oraAbs (w : Addr) (s : State) : exec (.oraAbs w) s = .next (oraA (s.read (eaAbs w)) 3 s) := rfl
@[simp] theorem exec_oraAbsx (w : Addr) (s : State) : exec (.oraAbsx w) s = .next (oraA (s.read (eaAbsx w s)) 3 s) := rfl
@[simp] theorem exec_oraAbsy (w : Addr) (s : State) : exec (.oraAbsy w) s = .next (oraA (s.read (eaAbsy w s)) 3 s) := rfl
@[simp] theorem exec_oraIndx (z : Byte) (s : State) : exec (.oraIndx z) s = .next (oraA (s.read (eaIndx z s)) 2 s) := rfl
@[simp] theorem exec_oraIndy (z : Byte) (s : State) : exec (.oraIndy z) s = .next (oraA (s.read (eaIndy z s)) 2 s) := rfl
@[simp] theorem exec_eorImm (v : Byte) (s : State) : exec (.eorImm v) s = .next (eorA v 2 s) := rfl
@[simp] theorem exec_eorZp (z : Byte) (s : State) : exec (.eorZp z) s = .next (eorA (s.read (eaZp z)) 2 s) := rfl
@[simp] theorem exec_eorZpx (z : Byte) (s : State) : exec (.eorZpx z) s = .next (eorA (s.read (eaZpx z s)) 2 s) := rfl
@[simp] theorem exec_eorAbs (w : Addr) (s : State) : exec (.eorAbs w) s = .next (eorA (s.read (eaAbs w)) 3 s) := rfl
@[simp] theorem exec_eorAbsx (w : Addr) (s : State) : exec (.eorAbsx w) s = .next (eorA (s.read (eaAbsx w s)) 3 s) := rfl
@[simp] theorem exec_eorAbsy (w : Addr) (s : State) : exec (.eorAbsy w) s = .next (eorA (s.read (eaAbsy w s)) 3 s) := rfl
@[simp] theorem exec_eorIndx (z : Byte) (s : State) : exec (.eorIndx z) s = .next (eorA (s.read (eaIndx z s)) 2 s) := rfl
@[simp] theorem exec_eorIndy (z : Byte) (s : State) : exec (.eorIndy z) s = .next (eorA (s.read (eaIndy z s)) 2 s) := rfl
@[simp] theorem exec_bitZp (z : Byte) (s : State) : exec (.bitZp z) s = .next (bitA (s.read (eaZp z)) 2 s) := rfl
@[simp] theorem exec_bitAbs (w : Addr) (s : State) : exec (.bitAbs w) s = .next (bitA (s.read (eaAbs w)) 3 s) := rfl
@[simp] theorem exec_bccRel (r : Byte) (s : State) : exec (.bccRel r) s = .next (branch (!s.p.c) r s) := rfl
@[simp] theorem exec_bcsRel (r : Byte) (s : State) : exec (.bcsRel r) s = .next (branch (s.p.c) r s) := rfl
@[simp] theorem exec_beqRel (r : Byte) (s : State) : exec (.beqRel r) s = .next (branch (s.p.z) r s) := rfl
@[simp] theorem exec_bneRel (r : Byte) (s : State) : exec (.bneRel r) s = .next (branch (!s.p.z) r s) := rfl
@[simp] theorem exec_bmiRel (r : Byte) (s : State) : exec (.bmiRel r) s = .next (branch (s.p.n) r s) := rfl
@[simp] theorem exec_bplRel (r : Byte) (s : State) : exec (.bplRel r) s = .next (branch (!s.p.n) r s) := rfl
@[simp] theorem exec_bvcRel (r : Byte) (s : State) : exec (.bvcRel r) s = .next (branch (!s.p.v) r s) := rfl
@[simp] theorem exec_bvsRel (r : Byte) (s : State) : exec (.bvsRel r) s = .next (branch (s.p.v) r s) := rfl
@[simp] theorem exec_jmpAbs (w : Addr) (s : State) : exec (.jmpAbs w) s = .next (s.setPc w) := rfl
@[simp] theorem exec_jmpInd (w : Addr) (s : State) : exec (.jmpInd w) s = .next (s.setPc (targetInd w s)) := rfl
@[simp] theorem exec_pha (s : State) : exec (.pha) s = .next ((s.push s.a).advance 1) := rfl
@[simp] theorem exec_php (s : State) : exec (.php) s = .next ((s.push (pushedP s.p)).advance 1) := rfl
@[simp] theorem exec_pla (s : State) : exec (.pla) s = .next (((s.afterPull.setA s.pulled).setNZ s.pulled).advance 1) := rfl
@[simp] theorem exec_plp (s : State) : exec (.plp) s = .next ((s.afterPull.setP (writeP s.pulled)).advance 1) := rfl
@[simp] theorem exec_jsrAbs (w : Addr) (s : State) : exec (.jsrAbs w) s = .next ((s.pushWord s.returnAddress).setPc w) := rfl
@[simp] theorem exec_rts (s : State) : exec (.rts) s = .next (s.afterPull.afterPull.setPc (s.pulledWord + 1#16)) := rfl
@[simp] theorem exec_brk (s : State) : exec (.brk) s = .next (s.takeBreak) := rfl
@[simp] theorem exec_rti (s : State) : exec (.rti) s = .next (s.returnFromBreak) := rfl
@[simp] theorem exec_ldaImm (v : Byte) (s : State) : exec (.ldaImm v) s = .next (lda v 2 s) := rfl
@[simp] theorem exec_ldaZp (z : Byte) (s : State) : exec (.ldaZp z) s = .next (lda (s.read (eaZp z)) 2 s) := rfl
@[simp] theorem exec_ldaZpx (z : Byte) (s : State) : exec (.ldaZpx z) s = .next (lda (s.read (eaZpx z s)) 2 s) := rfl
@[simp] theorem exec_ldaAbs (w : Addr) (s : State) : exec (.ldaAbs w) s = .next (lda (s.read (eaAbs w)) 3 s) := rfl
@[simp] theorem exec_ldaAbsx (w : Addr) (s : State) : exec (.ldaAbsx w) s = .next (lda (s.read (eaAbsx w s)) 3 s) := rfl
@[simp] theorem exec_ldaAbsy (w : Addr) (s : State) : exec (.ldaAbsy w) s = .next (lda (s.read (eaAbsy w s)) 3 s) := rfl
@[simp] theorem exec_ldaIndx (z : Byte) (s : State) : exec (.ldaIndx z) s = .next (lda (s.read (eaIndx z s)) 2 s) := rfl
@[simp] theorem exec_ldaIndy (z : Byte) (s : State) : exec (.ldaIndy z) s = .next (lda (s.read (eaIndy z s)) 2 s) := rfl
@[simp] theorem exec_ldxImm (v : Byte) (s : State) : exec (.ldxImm v) s = .next (ldx v 2 s) := rfl
@[simp] theorem exec_ldxZp (z : Byte) (s : State) : exec (.ldxZp z) s = .next (ldx (s.read (eaZp z)) 2 s) := rfl
@[simp] theorem exec_ldxZpy (z : Byte) (s : State) : exec (.ldxZpy z) s = .next (ldx (s.read (eaZpy z s)) 2 s) := rfl
@[simp] theorem exec_ldxAbs (w : Addr) (s : State) : exec (.ldxAbs w) s = .next (ldx (s.read (eaAbs w)) 3 s) := rfl
@[simp] theorem exec_ldxAbsy (w : Addr) (s : State) : exec (.ldxAbsy w) s = .next (ldx (s.read (eaAbsy w s)) 3 s) := rfl
@[simp] theorem exec_ldyImm (v : Byte) (s : State) : exec (.ldyImm v) s = .next (ldy v 2 s) := rfl
@[simp] theorem exec_ldyZp (z : Byte) (s : State) : exec (.ldyZp z) s = .next (ldy (s.read (eaZp z)) 2 s) := rfl
@[simp] theorem exec_ldyZpx (z : Byte) (s : State) : exec (.ldyZpx z) s = .next (ldy (s.read (eaZpx z s)) 2 s) := rfl
@[simp] theorem exec_ldyAbs (w : Addr) (s : State) : exec (.ldyAbs w) s = .next (ldy (s.read (eaAbs w)) 3 s) := rfl
@[simp] theorem exec_ldyAbsx (w : Addr) (s : State) : exec (.ldyAbsx w) s = .next (ldy (s.read (eaAbsx w s)) 3 s) := rfl
@[simp] theorem exec_staZp (z : Byte) (s : State) : exec (.staZp z) s = .next (sta (eaZp z) 2 s) := rfl
@[simp] theorem exec_staZpx (z : Byte) (s : State) : exec (.staZpx z) s = .next (sta (eaZpx z s) 2 s) := rfl
@[simp] theorem exec_staAbs (w : Addr) (s : State) : exec (.staAbs w) s = .next (sta (eaAbs w) 3 s) := rfl
@[simp] theorem exec_staAbsx (w : Addr) (s : State) : exec (.staAbsx w) s = .next (sta (eaAbsx w s) 3 s) := rfl
@[simp] theorem exec_staAbsy (w : Addr) (s : State) : exec (.staAbsy w) s = .next (sta (eaAbsy w s) 3 s) := rfl
@[simp] theorem exec_staIndx (z : Byte) (s : State) : exec (.staIndx z) s = .next (sta (eaIndx z s) 2 s) := rfl
@[simp] theorem exec_staIndy (z : Byte) (s : State) : exec (.staIndy z) s = .next (sta (eaIndy z s) 2 s) := rfl
@[simp] theorem exec_stxZp (z : Byte) (s : State) : exec (.stxZp z) s = .next (stx (eaZp z) 2 s) := rfl
@[simp] theorem exec_stxZpy (z : Byte) (s : State) : exec (.stxZpy z) s = .next (stx (eaZpy z s) 2 s) := rfl
@[simp] theorem exec_stxAbs (w : Addr) (s : State) : exec (.stxAbs w) s = .next (stx (eaAbs w) 3 s) := rfl
@[simp] theorem exec_styZp (z : Byte) (s : State) : exec (.styZp z) s = .next (sty (eaZp z) 2 s) := rfl
@[simp] theorem exec_styZpx (z : Byte) (s : State) : exec (.styZpx z) s = .next (sty (eaZpx z s) 2 s) := rfl
@[simp] theorem exec_styAbs (w : Addr) (s : State) : exec (.styAbs w) s = .next (sty (eaAbs w) 3 s) := rfl
@[simp] theorem exec_tax (s : State) : exec (.tax) s = .next (((s.setX s.a).setNZ s.a).advance 1) := rfl
@[simp] theorem exec_tay (s : State) : exec (.tay) s = .next (((s.setY s.a).setNZ s.a).advance 1) := rfl
@[simp] theorem exec_txa (s : State) : exec (.txa) s = .next (((s.setA s.x).setNZ s.x).advance 1) := rfl
@[simp] theorem exec_tya (s : State) : exec (.tya) s = .next (((s.setA s.y).setNZ s.y).advance 1) := rfl
@[simp] theorem exec_tsx (s : State) : exec (.tsx) s = .next (((s.setX s.sp).setNZ s.sp).advance 1) := rfl
@[simp] theorem exec_txs (s : State) : exec (.txs) s = .next ((s.setSp s.x).advance 1) := rfl
@[simp] theorem exec_clc (s : State) : exec (.clc) s = .next ((s.setP (setFlag .C false s.p)).advance 1) := rfl
@[simp] theorem exec_sec (s : State) : exec (.sec) s = .next ((s.setP (setFlag .C true s.p)).advance 1) := rfl
@[simp] theorem exec_cli (s : State) : exec (.cli) s = .next ((s.setP (setFlag .I false s.p)).advance 1) := rfl
@[simp] theorem exec_sei (s : State) : exec (.sei) s = .next ((s.setP (setFlag .I true s.p)).advance 1) := rfl
@[simp] theorem exec_cld (s : State) : exec (.cld) s = .next ((s.setP (setFlag .D false s.p)).advance 1) := rfl
@[simp] theorem exec_sed (s : State) : exec (.sed) s = .next ((s.setP (setFlag .D true s.p)).advance 1) := rfl
@[simp] theorem exec_clv (s : State) : exec (.clv) s = .next ((s.setP (setFlag .V false s.p)).advance 1) := rfl
@[simp] theorem exec_nop (s : State) : exec (.nop) s = .next (s.advance 1) := rfl

/-- What one instruction can do to the memory: nothing, store one byte, push a word, or take the trap. -/
theorem exec_mem_cases {i : Instr} {s t : State} (h : exec i s = .next t) :
    t.mem = s.mem ∨ (∃ addr v, t.mem = (s.write addr v).mem) ∨ (∃ w, t.mem = (s.pushWord w).mem) ∨
      t.mem = s.takeBreak.mem := by
  cases i
  case brk =>
    simp only [exec_brk, Host.Outcome.next.injEq] at h
    exact .inr (.inr (.inr (by rw [h])))
  case jsrAbs w =>
    simp only [exec_jsrAbs, Host.Outcome.next.injEq] at h
    exact .inr (.inr (.inl ⟨s.returnAddress, by rw [← h, State.setPc_mem]⟩))
  all_goals
    simp at h
    subst h
    first
    | (refine .inl ?_; simp; done)
    | (refine .inr (.inl ?_); simp only [inc_mem, dec_mem, aslM_mem, lsrM_mem, rolM_mem, rorM_mem, sta_mem, stx_mem, sty_mem, State.advance_mem, State.push_mem, State.write_mem]; exact ⟨_, _, rfl⟩)

/-- Every instruction keeps the canonical form of the memory. -/
theorem exec_wf {i : Instr} {s t : State} (h : exec i s = .next t) (hm : Memory.wf s.mem) : Memory.wf t.mem := by
  obtain e | ⟨addr, v, e⟩ | ⟨w, e⟩ | e := exec_mem_cases h
  · rwa [e]
  · rw [e]
    exact State.wf_write hm addr v
  · rw [e]
    exact State.wf_pushWord hm w
  · rw [e]
    exact State.wf_takeBreak hm


end Sys2Proof.Machine
end

