-- ==== Sys2Proof/Safety.lean ====
section
/-! DEFINITION. How a run ends, a run with a step budget, and the invariants a state reached by a run has. -/

namespace Sys2Proof.Machine

/-- How a run ended, with the state kept for inspection (40_execution_cycle.md R151; 93_implementation_defined.md row 12).
-/
inductive RunEnd where
  /-- the core decoded an illegal byte and halted with the report -/
  | halted (report : HaltReport) (final : State)
  /-- the host's stop request took effect -/
  | stopped (final : State)
  /-- the step budget ran out, which is no end of the run -/
  | outOfFuel (last : State)
  deriving DecidableEq, Repr

/-- The end that a state shows: none while it runs. -/
def State.runEnd (s : State) : RunEnd :=
  if s.running then .outOfFuel s
  else
    match s.halt with
    | some r => .halted r s
    | none => .stopped s

/-- A run of at most `fuel` steps. -/
def run (fuel : Nat) (s : State) : RunEnd :=
  match fuel with
  | 0 => s.runEnd
  | k + 1 =>
    match step s with
    | .next t => run k t
    | .fault _ => s.runEnd
    | .refused _ => s.runEnd

/-- `halt` is present only if `running` is false (10_state.md R55). -/
def State.haltOnlyWhenEnded (s : State) : Prop := s.halt ≠ none → s.running = false

/-- A halt report names the byte at PC, and that byte is illegal (40_execution_cycle.md R143). -/
def State.haltReportTrue (s : State) : Prop :=
  ∀ r, s.halt = some r →
    s.running = false ∧ r.address = s.pc ∧ r.opcode = s.read s.pc ∧ describeOpcode r.opcode = none

/-- The invariant of the machine: the memory is in its canonical form, and a halt report is there only after the end of the
run and is true (so `haltOnlyWhenEnded` holds too). -/
structure State.Inv (s : State) : Prop where
  memory : Memory.wf s.mem
  report : s.haltReportTrue

/-- PC has moved past the instruction's own bytes (40_execution_cycle.md R145, R146), where they do not run over the top of
memory. What happens there, the wrap, is the spec's decision D3, and the obligation `PcAdvancesByTheLength` says it. -/
def MovesPast (i : Instr) (s t : State) : Prop :=
  s.pc.toNat + i.mode.length < 65536 → t.pc.toNat = s.pc.toNat + i.mode.length

/-- A state that some run from a state with the invariant, which every launch has, passes through. -/
inductive Reaches (start : State) : State → Prop where
  | here : Reaches start start
  | step {s t : State} : Reaches start s → Machine.step s = .next t → Reaches start t

end Sys2Proof.Machine
end

