-- ==== Sys2Proof/Laws/Step.lean ====
section
/-! SUPPORT. What one step can do, said once: the inversion of `step`, for invariants to be derived from. -/

namespace Sys2Proof.Machine

/-- The fetched bytes are three, so the decoder's only rejection is the illegal opcode at PC. -/
theorem decode_fetchBytes (s : State) :
    (∃ i rest, decode s.fetchBytes = .instr i rest) ∨
      (decode s.fetchBytes = .illegalOpcode (s.read s.pc) ∧ describeOpcode (s.read s.pc) = none) := by
  simp only [decode, State.fetchBytes, describeOpcode]
  cases decodeOpcode (s.read s.pc) with
  | illegal => exact .inr ⟨rfl, rfl⟩
  | legal o m c f => cases f <;> exact .inl ⟨_, _, rfl⟩

/-- If a step answers a next state, then it honoured a stop, or it halted on an illegal opcode, or it ran the decoded
instruction. -/
theorem step_cases {s t : State} (h : step s = .next t) :
    s.running = true ∧
      ((s.stopDue = true ∧ t = s.passBoundary.honourStop) ∨
       (s.stopDue = false ∧ describeOpcode (s.read s.pc) = none ∧ t = s.passBoundary.raiseInvalidOpcode (s.read s.pc)) ∨
       (s.stopDue = false ∧ ∃ i rest, decode s.fetchBytes = .instr i rest ∧ exec i s.passBoundary = .next t)) := by
  unfold step cycle at h
  cases hr : s.running with
  | false =>
    simp only [hr, endOfRun] at h
    cases hh : s.halt <;> simp [hh] at h
  | true =>
    refine ⟨rfl, ?_⟩
    cases hs : s.stopDue with
    | true =>
      simp only [hr, hs, if_true, Host.Outcome.next.injEq] at h
      exact .inl ⟨rfl, h.symm⟩
    | false =>
      simp only [hr, hs, if_true, Bool.false_eq_true, if_false, runInstruction] at h
      have bytes : s.passBoundary.fetchBytes = s.fetchBytes := rfl
      rw [bytes] at h
      obtain ⟨i, rest, e⟩ | ⟨e, ill⟩ := decode_fetchBytes s
      · rw [e] at h
        exact .inr (.inr ⟨rfl, i, rest, e, h⟩)
      · rw [e] at h
        simp only [Host.Outcome.next.injEq] at h
        exact .inr (.inl ⟨rfl, ill, h.symm⟩)

/-- Packaged induction: what a start state has and every step keeps, every reached state has. -/
theorem Reaches.induct {start : State} {Q : State → Prop} (base : Q start)
    (keeps : ∀ s t, Q s → Machine.step s = .next t → Q t) {s : State} (h : Reaches start s) : Q s := by
  induction h with
  | here => exact base
  | step _ st ih => exact keeps _ _ ih st

end Sys2Proof.Machine
end

