-- ==== Sys2Proof/Machine/Timing.lean ====
section
/-! DEFINITION. The informative cycle count (30_encoding.md R115; 70_reset_and_hazards.md R392, R393). No step reads it and
no state holds it. -/

namespace Sys2Proof.Machine

/-- The base address that an indexed mode adds its index to (41_addressing_modes.md R175). -/
def indexBase (d : Addressing) (s : State) : Option Addr :=
  match d with
  | .absx w | .absy w => some w
  | .indy z => some (s.zeroPagePair z)
  | .imp | .acc | .imm _ | .zp _ | .zpx _ | .zpy _ | .abs _ | .indx _ | .ind _ | .rel _ => none

/-- `pageCrossed`: the effective address lies in another page than the base (41_addressing_modes.md R175). -/
def pageCrossed (i : Instr) (s : State) : Bool :=
  match indexBase i.addressing s, operandOf i s with
  | some base, .addr ea => highByte base != highByte ea
  | _, _ => false

/-- Is the branch of a mnemonic taken under these flags (44_branch_jump.md R261 to R268)? False for every other one. -/
def branchTaken (m : Mnemonic) (p : Flags) : Bool :=
  (m == .BCC && !p.c) || (m == .BCS && p.c) || (m == .BEQ && p.z) || (m == .BNE && !p.z) ||
  (m == .BMI && p.n) || (m == .BPL && !p.n) || (m == .BVC && !p.v) || (m == .BVS && p.v)

/-- The rows of 30_encoding.md R115 whose "extra" is "+1 if page crossed". -/
def pageCrossOpcodes : List Byte := [
  0x11#8, 0x19#8, 0x1D#8, 0x31#8, 0x39#8, 0x3D#8, 0x51#8, 0x59#8, 0x5D#8, 0x71#8, 0x79#8, 0x7D#8,
  0xB1#8, 0xB9#8, 0xBC#8, 0xBD#8, 0xBE#8, 0xD1#8, 0xD9#8, 0xDD#8, 0xF1#8, 0xF9#8, 0xFD#8]

/-- The rows of 30_encoding.md R115 whose "extra" is "+1 if taken, +1 more if page crossed". -/
def branchOpcodes : List Byte := [
  0x10#8, 0x30#8, 0x50#8, 0x70#8, 0x90#8, 0xB0#8, 0xD0#8, 0xF0#8]

/-- The "extra" column of 30_encoding.md R115, which the descriptor does not hold (R114). -/
def extraKind (op : Byte) : ExtraCycles :=
  if pageCrossOpcodes.contains op then .pageCross
  else if branchOpcodes.contains op then .branch
  else .none

/-- The extra cycles of an instruction (70_reset_and_hazards.md R393). -/
def extraCycles (i : Instr) (kind : ExtraCycles) (s : State) : Nat :=
  match kind with
  | .none => 0
  | .pageCross => if pageCrossed i s then 1 else 0
  | .branch =>
    if branchTaken i.mnemonic s.p then
      match operandOf i s with
      | .target t => if highByte t = highByte (s.pc + 2#16) then 1 else 2
      | .none | .acc | .value _ | .addr _ => 1
    else 0

/-- The informative cycle count of an instruction at a state: the descriptor's base count, and the extras as "additive
adjustments" (30_encoding.md R114). -/
def cycleCount (i : Instr) (s : State) : Nat :=
  match describeOpcode i.opcode with
  | some d => d.cycles + extraCycles i (extraKind d.opcode) s
  | none => 0

end Sys2Proof.Machine
end

