-- ==== Sys2Proof/Certificates/Slice0/Obligations.lean ====
section
/-! DEFINITION. The statements for the provers. A statement about instructions names them by their opcode bytes, as the
rule's own "Encoding" line does, with the mode of each; `operandOf` is the resolver, which the three statements about
addressing pin down as numbers. -/

open Sys2Proof Sys2Proof.Machine

/-! ### Reset and launch -/

/-- The state right after reset: registers and stored flags zero, the packed status 0x20, PC 0x0000, running, no halt
report, and the first push lands at 0x0100 and leaves SP = 0xFF (70_reset_and_hazards.md R380, R381, R383, R384). That SP is
among the "registers zeroed", that PC is 0x0000 when no loader sets it and that `running` is true are the spec's own
decisions D11 and D13. Nothing is said of the memory and of the stop schedule, whose reset values are the model's choice
(logs 1, 2). -/
def Obligations.ResetRegistersAndStatus : Prop :=
  let s := State.reset
  s.a = 0x00#8 ∧ s.x = 0x00#8 ∧ s.y = 0x00#8 ∧ s.sp = 0x00#8 ∧ s.pc = 0x0000#16 ∧
    (∀ f, getFlag f s.p = false) ∧ readP s.p = 0x20#8 ∧ s.running = true ∧ s.halt = none ∧
    ∀ v, (s.push v).read 0x0100#16 = v ∧ (s.push v).sp = 0xFF#8

/-- The invariant of the machine holds at reset. -/
def Obligations.InvariantHoldsAtReset : Prop := State.reset.Inv

/-- The invariant holds at every launch whose image is in canonical form, whatever the loader seeds, and a launch runs with
no halt report (70_reset_and_hazards.md R384, R386; running at launch is decision D13, the canonical form is log 1); and
every image a loader lists is brought into canonical form, with the byte listed last for an address at that address, and an
address that no pair lists reading as in the empty image (R382, decision D12; what that is, log 1, is not said). -/
def Obligations.InvariantHoldsAtEveryLaunch : Prop :=
  (∀ l : Launch, Memory.wf l.image → (launch l).Inv ∧ (launch l).running = true ∧ (launch l).halt = none) ∧
    (∀ cells : List (Addr × Byte), Memory.wf (imageOf cells)) ∧
    (∀ (before rest : List (Addr × Byte)) (addr : Addr) (v : Byte) (l : Launch), (∀ c ∈ rest, c.1 ≠ addr) →
      (launch { l with image := imageOf (before ++ (addr, v) :: rest) }).read addr = v) ∧
    ∀ (cells : List (Addr × Byte)) (addr : Addr) (l : Launch), (∀ c ∈ cells, c.1 ≠ addr) →
      (launch { l with image := imageOf cells }).read addr = (launch { l with image := imageOf [] }).read addr

/-- Every step keeps the invariant: the memory stays canonical (inside the 65,536 bytes), and a halt report is present only
in a core that no longer runs and names the illegal byte at PC (10_state.md R55; 40_execution_cycle.md R143; PC left there
is the spec's decision D14). -/
def Obligations.StepKeepsInvariant : Prop :=
  ∀ s t : State, s.Inv → step s = .next t → t.Inv

/-! ### Encoding -/

/-- Decoding an encoded instruction gives it back, with every operand at every value, and leaves the bytes after it.
The opcode bytes are the spec's decision D4. -/
def Obligations.DecodeOfEncodeIsTheInstruction : Prop :=
  ∀ (i : Instr) (rest : List Byte), decode (encode i ++ rest) = .instr i rest

/-- Encoding what was decoded gives the bytes back: each byte string has one reading (opcode bytes: decision D4). -/
def Obligations.EncodeOfDecodeIsTheBytes : Prop :=
  ∀ (bytes rest : List Byte) (i : Instr), decode bytes = .instr i rest → encode i ++ rest = bytes

/-- A few words written out bit by bit from the spec's encodings decode to the instructions they stand for, one of each
family. -/
def Obligations.SampleWordsDecode : Prop :=
  decode [0b01101001#8, 0b00000001#8] = .instr (.adcImm 0x01#8) [] ∧
    decode [0b00101110#8, 0b00000000#8, 0b00000011#8] = .instr (.rolAbs 0x0300#16) [] ∧
    decode [0b01101100#8, 0b11111111#8, 0b00000010#8] = .instr (.jmpInd 0x02FF#16) [] ∧
    decode [0b00100000#8, 0b00010000#8, 0b00000010#8] = .instr (.jsrAbs 0x0210#16) [] ∧
    decode [0b10010001#8, 0b11111111#8] = .instr (.staIndy 0xFF#8) [] ∧
    decode [0b11101010#8, 0b11101010#8] = .instr .nop [0b11101010#8] ∧
    decode [0b00000010#8, 0b10101001#8] = .illegalOpcode 0b00000010#8

/-! ### The step -/

/-- The 105 bytes of 30_encoding.md R117 are exactly the ones the decoder rejects, whatever follows; and each of them,
fetched as an opcode by a running core with no stop due, halts the core with the report of the byte and its address. The
report in the state is the spec's decision D14, the halt as a next state the model's reading (log 3), the stop schedule the
model's own field (log 2). -/
def Obligations.IllegalBytesHaltTheCore : Prop :=
  let illegal : List Byte := [
    0x02#8, 0x03#8, 0x04#8, 0x07#8, 0x0B#8, 0x0C#8, 0x0F#8, 0x12#8, 0x13#8, 0x14#8, 0x17#8, 0x1A#8, 0x1B#8, 0x1C#8, 0x1F#8,
    0x22#8, 0x23#8, 0x27#8, 0x2B#8, 0x2F#8, 0x32#8, 0x33#8, 0x34#8, 0x37#8, 0x3A#8, 0x3B#8, 0x3C#8, 0x3F#8, 0x42#8, 0x43#8,
    0x44#8, 0x47#8, 0x4B#8, 0x4F#8, 0x52#8, 0x53#8, 0x54#8, 0x57#8, 0x5A#8, 0x5B#8, 0x5C#8, 0x5F#8, 0x62#8, 0x63#8, 0x64#8,
    0x67#8, 0x6B#8, 0x6F#8, 0x72#8, 0x73#8, 0x74#8, 0x77#8, 0x7A#8, 0x7B#8, 0x7C#8, 0x7F#8, 0x80#8, 0x82#8, 0x83#8, 0x87#8,
    0x89#8, 0x8B#8, 0x8F#8, 0x92#8, 0x93#8, 0x97#8, 0x9B#8, 0x9C#8, 0x9E#8, 0x9F#8, 0xA3#8, 0xA7#8, 0xAB#8, 0xAF#8, 0xB2#8,
    0xB3#8, 0xB7#8, 0xBB#8, 0xBF#8, 0xC2#8, 0xC3#8, 0xC7#8, 0xCB#8, 0xCF#8, 0xD2#8, 0xD3#8, 0xD4#8, 0xD7#8, 0xDA#8, 0xDB#8,
    0xDC#8, 0xDF#8, 0xE2#8, 0xE3#8, 0xE7#8, 0xEB#8, 0xEF#8, 0xF2#8, 0xF3#8, 0xF4#8, 0xF7#8, 0xFA#8, 0xFB#8, 0xFC#8, 0xFF#8]
  illegal.length = 105 ∧
    (∀ (op : Byte) (rest : List Byte), decode (op :: rest) = .illegalOpcode op ↔ op ∈ illegal) ∧
    ∀ s : State, s.running = true → s.hostStops.head? ≠ some true → s.read s.pc ∈ illegal →
      ∃ t, step s = .next t ∧ t.running = false ∧ t.halt = some { opcode := s.read s.pc, address := s.pc }

/-- The halt on an illegal opcode changes nothing but `running` and the report: PC still holds the byte's address, and A, X,
Y, SP, P and the memory are as before (40_execution_cycle.md R143; 60_exceptions.md R354). That PC is not advanced is the
spec's own reading (decision D14). The used-up schedule entry is the model's own field (log 2). -/
def Obligations.IllegalOpcodeChangesNothingElse : Prop :=
  ∀ s : State, s.running = true → s.hostStops.head? ≠ some true → describeOpcode (s.read s.pc) = none →
    step s = .next { s with
      running := false
      halt := some { opcode := s.read s.pc, address := s.pc }
      hostStops := s.hostStops.tail }

/-- A step runs the decoded instruction: when a core runs, no stop is due at the boundary, and the bytes at PC, PC + 1 and
PC + 2 (modulo 65,536, decision D3) decode to `i`, the step is `exec i` of the same state, with the boundary's entry of the
host's stop schedule (log 2) used up. -/
def Obligations.StepRunsTheDecodedInstruction : Prop :=
  ∀ (s : State) (i : Instr) (rest : List Byte), s.running = true → s.hostStops.head? ≠ some true →
    decode [s.read s.pc, s.read (s.pc + 1#16), s.read (s.pc + 2#16)] = .instr i rest →
    step s = exec i { s with hostStops := s.hostStops.tail }

/-- The host's stop request takes effect at a boundary, never inside an instruction: `running` becomes false and nothing
else changes, with no halt report made (40_execution_cycle.md R148, decision D15), even in front of an illegal byte
(60_exceptions.md R353). The schedule is the model's own field (log 2). -/
def Obligations.StopRequestTakesEffectAtABoundary : Prop :=
  ∀ s : State, s.running = true → s.hostStops.head? = some true →
    step s = .next { s with running := false, hostStops := s.hostStops.tail }

/-- A core that is not running has no step (40_execution_cycle.md R140): no next state, but the fault of its end (R151),
with the report if it halted. That this is a fault of `step` is the model's reading (log 3). -/
def Obligations.EndedCoreHasNoStep : Prop :=
  ∀ s : State, s.running = false →
    (∀ t, step s ≠ .next t) ∧
      (∀ r, s.halt = some r → step s = .fault (.invalidOpcode r.opcode r.address)) ∧
      (s.halt = none → step s = .fault .stopped)

/-- "Nothing else faults" (60_exceptions.md R351): a running core always steps, from any state and whatever the memory
holds; and a core that no longer runs has no next state (its fault is the model's reading, log 3). -/
def Obligations.RunningCoreAlwaysSteps : Prop :=
  ∀ s : State, (∃ t, step s = .next t) ↔ s.running = true

/-- Every instruction completes in every state, and none changes the lifecycle flag, the halt report or the host's
schedule, which is the model's own field (60_exceptions.md R351; 10_state.md R52; log 2). -/
def Obligations.EveryInstructionCompletes : Prop :=
  ∀ (i : Instr) (s : State), ∃ t, exec i s = .next t ∧ t.running = s.running ∧ t.halt = s.halt ∧ t.hostStops = s.hostStops

/-- Of a running core's steps, exactly those end the run that honour a stop request or meet an illegal byte, and no step
sets `running` back to true (10_state.md R52; decision D15; the schedule is log 2). -/
def Obligations.RunEndsOnlyByIllegalByteOrStop : Prop :=
  ∀ s t : State, step s = .next t →
    (t.running = false ↔ s.hostStops.head? = some true ∨ describeOpcode (s.read s.pc) = none) ∧
      (t.running = true → s.running = true)

/-- A store is seen by the very next fetch (20_memory.md R93, decision D16): after STA to the address where the next
instruction starts (PC + 3 modulo 65,536, decision D3), the byte fetched there is the stored one; and if it is illegal, in a
core that runs with no stop due, the next step halts with it and its address. In this last clause the stop schedule is the
model's own field (log 2), the halt as a next state the model's reading (log 3), and the report in the state the spec's
decision D14. -/
def Obligations.StoreIsSeenByTheNextFetch : Prop :=
  ∀ s : State, ∃ t, exec (.staAbs (s.pc + 3#16)) s = .next t ∧ t.pc = s.pc + 3#16 ∧
    t.fetchBytes.head? = some s.a ∧
      (s.running = true → s.hostStops.head? ≠ some true → describeOpcode s.a = none →
        ∃ u, step t = .next u ∧ u.halt = some { opcode := s.a, address := s.pc + 3#16 })

/-! ### Whole-machine rules -/

/-- Each flag is changed only by the mnemonics its row of 10_state.md R45 lists, columns the spec derives from the
instruction rules. -/
def Obligations.FlagsHaveTheirListedWriters : Prop :=
  let nz : List Mnemonic := [.ADC, .SBC, .AND, .ORA, .EOR, .BIT, .CMP, .CPX, .CPY, .INC, .DEC, .INX, .INY, .DEX, .DEY,
    .ASL, .LSR, .ROL, .ROR, .LDA, .LDX, .LDY, .PLA, .TAX, .TAY, .TXA, .TYA, .TSX, .PLP, .RTI]
  ∀ (i : Instr) (s t : State), exec i s = .next t →
    (t.p.n ≠ s.p.n → i.mnemonic ∈ nz) ∧
      (t.p.v ≠ s.p.v → i.mnemonic ∈ [Mnemonic.ADC, .SBC, .BIT, .CLV, .PLP, .RTI]) ∧
      (t.p.b ≠ s.p.b → i.mnemonic ∈ [Mnemonic.BRK, .PLP, .RTI]) ∧
      (t.p.d ≠ s.p.d → i.mnemonic ∈ [Mnemonic.SED, .CLD, .PLP, .RTI]) ∧
      (t.p.i ≠ s.p.i → i.mnemonic ∈ [Mnemonic.SEI, .CLI, .BRK, .PLP, .RTI]) ∧
      (t.p.z ≠ s.p.z → i.mnemonic ∈ nz) ∧
      (t.p.c ≠ s.p.c → i.mnemonic ∈ [Mnemonic.ADC, .SBC, .CMP, .CPX, .CPY, .ASL, .LSR, .ROL, .ROR, .CLC, .SEC, .PLP, .RTI])

/-- Each register is changed only by the mnemonics 10_state.md R40 to R43 list as its writers; the four shifts write A in
their accumulator form only. The spec derives the lists from the instruction rules. -/
def Obligations.RegistersHaveTheirListedWriters : Prop :=
  ∀ (i : Instr) (s t : State), exec i s = .next t →
    (t.a ≠ s.a → i.mnemonic ∈ [Mnemonic.ADC, .SBC, .AND, .ORA, .EOR, .LDA, .PLA, .TXA, .TYA] ∨
      i.mnemonic ∈ [Mnemonic.ASL, .LSR, .ROL, .ROR] ∧ i.mode = .ACC) ∧
      (t.x ≠ s.x → i.mnemonic ∈ [Mnemonic.LDX, .INX, .DEX, .TAX, .TSX]) ∧
      (t.y ≠ s.y → i.mnemonic ∈ [Mnemonic.LDY, .INY, .DEY, .TAY]) ∧
      (t.sp ≠ s.sp → i.mnemonic ∈ [Mnemonic.PHA, .PHP, .PLA, .PLP, .JSR, .RTS, .BRK, .RTI, .TXS])

/-- The frame of memory: an instruction that is neither a store, nor a read-modify-write of memory, nor a push leaves every
byte; STA, STX, STY, INC, DEC and the memory forms of the shifts leave every byte but the one at the effective address the
resolver gives. -/
def Obligations.MemoryChangesOnlyWhereStored : Prop :=
  ∀ (i : Instr) (s t : State), exec i s = .next t →
    (i.mnemonic ∉ [Mnemonic.STA, .STX, .STY, .INC, .DEC, .ASL, .LSR, .ROL, .ROR, .PHA, .PHP, .JSR, .BRK] ∨ i.mode = .ACC →
      ∀ addr, t.read addr = s.read addr) ∧
      (i.mnemonic ∈ [Mnemonic.STA, .STX, .STY, .INC, .DEC, .ASL, .LSR, .ROL, .ROR] → i.mode ≠ .ACC →
        ∃ ea, operandOf i s = .addr ea ∧ ∀ addr, addr ≠ ea → t.read addr = s.read addr)

/-- Every push stays in page 1, and a push instruction leaves every byte outside the slots it fills: one for PHA and PHP,
two for JSR, three for BRK (20_memory.md R85; 10_state.md R43, R55). The slots are numbered by SP modulo 256. -/
def Obligations.PushesStayInPageOne : Prop :=
  ∀ (i : Instr) (s t : State) (count : Nat),
    (i.mnemonic, count) ∈ [(Mnemonic.PHA, 1), (.PHP, 1), (.JSR, 2), (.BRK, 3)] → exec i s = .next t →
      t.sp.toNat = (s.sp.toNat + 256 - count) % 256 ∧
        ∀ addr : Addr, (∀ k, k < count → addr.toNat ≠ 256 + (s.sp.toNat + 256 - k) % 256) → t.read addr = s.read addr

/-- PC advances by the length of the instruction, modulo 65,536, for every instruction but JMP, JSR, RTS, RTI, BRK and taken
branches (40_execution_cycle.md R146; the wrap is the spec's decision D3); the length is the mode's (30_encoding.md R111)
and the number of bytes of the encoding. -/
def Obligations.PcAdvancesByTheLength : Prop :=
  ∀ (i : Instr) (s t : State), exec i s = .next t →
    i.mnemonic ∉ [Mnemonic.JMP, .JSR, .RTS, .RTI, .BRK] → (i.mode = .REL → branchTaken i.mnemonic s.p = false) →
      t.pc.toNat = (s.pc.toNat + (encode i).length) % 65536 ∧ (encode i).length = i.mode.length

/-- D changes no arithmetic, I gates nothing, and the stored B is read by nothing: except for the instructions that push,
pull or write these flags, running an instruction with one of them forced gives the same result with that flag forced
(42_arithmetic.md R190, decision D6; 60_exceptions.md R352, decision D18). -/
def Obligations.DecimalInterruptAndBreakFlagsAreInert : Prop :=
  ∀ (f : FlagName) (b : Bool) (i : Instr) (s t : State), f ∈ [FlagName.D, .I, .B] →
    i.mnemonic ∉ [Mnemonic.PHP, .BRK, .PLP, .RTI, .CLI, .SEI, .CLD, .SED] →
    exec i s = .next t → exec i { s with p := setFlag f b s.p } = .next { t with p := setFlag f b t.p }

/-! ### The status register -/

/-- `ReadP()` is `N<<7 | V<<6 | 1<<5 | B<<4 | D<<3 | I<<2 | Z<<1 | C` (10_state.md R47; bit 5 is decision D7). -/
def Obligations.PackedStatusByte : Prop :=
  ∀ p : Flags, (readP p).toNat =
    128 * p.n.toNat + 64 * p.v.toNat + 32 + 16 * p.b.toNat + 8 * p.d.toNat + 4 * p.i.toNat + 2 * p.z.toNat + p.c.toNat

/-- `WriteP` loads every stored flag and ignores bit 5, which reads as 1 (10_state.md R46, R48, decisions D7, D8): reading
back a written byte gives it with bit 5 set, and writing back a read byte changes nothing. -/
def Obligations.StatusByteWriteThenRead : Prop :=
  (∀ v : Byte, readP (writeP v) = v ||| 0x20#8) ∧ (∀ p : Flags, writeP (readP p) = p) ∧
    ∀ v : Byte, writeP (v ||| 0x20#8) = writeP v ∧ writeP (v &&& 0xDF#8) = writeP v

/-- `setFlag(f, b)` changes only bit f, `getFlag(f)` reads only bit f (10_state.md R49). -/
def Obligations.SetFlagChangesOnlyItsFlag : Prop :=
  ∀ (f g : FlagName) (b : Bool) (p : Flags),
    getFlag g (setFlag f b p) = (if g = f then b else getFlag g p) ∧ (getFlag f p = b → setFlag f b p = p)

/-! ### Addressing modes -/

/-- The modes without a pointer in memory, as numbers (41_addressing_modes.md R161 to R167, R171, R173): the immediate
value; zero page, with the index wrapping modulo 256; absolute, with the index wrapping modulo 65,536, and a target for JMP
and JSR; accumulator, read and written back; implied. Whatever mode gives it, an address is loaded from by reading its
byte. -/
def Obligations.DirectAddressingModes : Prop :=
  ∀ (i : Instr) (s : State),
    (∀ v, i.addressing = .imm v → operandOf i s = .value v ∧ (operandOf i s).load s = some v) ∧
      (∀ ea, operandOf i s = .addr ea → (operandOf i s).load s = some (s.read ea)) ∧
      (∀ z, i.addressing = .zp z → ∃ ea, operandOf i s = .addr ea ∧ ea.toNat = z.toNat) ∧
      (∀ z, i.addressing = .zpx z → ∃ ea, operandOf i s = .addr ea ∧ ea.toNat = (z.toNat + s.x.toNat) % 256) ∧
      (∀ z, i.addressing = .zpy z →
        i.mnemonic ∈ [Mnemonic.LDX, .STX] ∧ ∃ ea, operandOf i s = .addr ea ∧ ea.toNat = (z.toNat + s.y.toNat) % 256) ∧
      (∀ w, i.addressing = .abs w →
        operandOf i s = if i.mnemonic ∈ [Mnemonic.JMP, .JSR] then .target w else .addr w) ∧
      (∀ w, i.addressing = .absx w → ∃ ea, operandOf i s = .addr ea ∧ ea.toNat = (w.toNat + s.x.toNat) % 65536) ∧
      (∀ w, i.addressing = .absy w → ∃ ea, operandOf i s = .addr ea ∧ ea.toNat = (w.toNat + s.y.toNat) % 65536) ∧
      (i.addressing = .acc → operandOf i s = .acc ∧ i.opcode ∈ [0x0A#8, 0x4A#8, 0x2A#8, 0x6A#8] ∧
        (operandOf i s).load s = some s.a ∧ ∀ v, (operandOf i s).store v s = some { s with a := v }) ∧
      (i.addressing = .imp → operandOf i s = .none)

/-- Indirect,X and Indirect,Y as numbers (41_addressing_modes.md R168, R169): the pair's second byte comes from the next
zero-page slot modulo 256, and Y is added modulo 65,536. -/
def Obligations.PointerAddressingModes : Prop :=
  ∀ (i : Instr) (s : State) (z : Byte),
    (i.addressing = .indx z → ∀ lo hi : Addr, lo.toNat = (z.toNat + s.x.toNat) % 256 →
      hi.toNat = (z.toNat + s.x.toNat + 1) % 256 →
      ∃ ea, operandOf i s = .addr ea ∧ ea.toNat = 256 * (s.read hi).toNat + (s.read lo).toNat) ∧
      (i.addressing = .indy z → ∀ lo hi : Addr, lo.toNat = z.toNat → hi.toNat = (z.toNat + 1) % 256 →
        ∃ ea, operandOf i s = .addr ea ∧
          ea.toNat = (256 * (s.read hi).toNat + (s.read lo).toNat + s.y.toNat) % 65536)

/-- The targets of control transfers as numbers: Relative adds the offset to the low byte of the branch's own PC and keeps
the high byte (41_addressing_modes.md R170; that it is the opcode's own PC is the spec's decision D2); Indirect reads the
high byte within the pointer's page (R172, which the spec derives from its Scenario 4). -/
def Obligations.ControlTransferTargets : Prop :=
  ∀ (i : Instr) (s : State),
    (∀ r, i.addressing = .rel r → ∃ t, operandOf i s = .target t ∧ t.toNat / 256 = s.pc.toNat / 256 ∧
      (((t.toNat : Int) - (s.pc.toNat : Int) - signed8 r) % 256 = 0)) ∧
      (∀ w, i.addressing = .ind w → ∀ hi : Addr, hi.toNat = 256 * (w.toNat / 256) + (w.toNat % 256 + 1) % 256 →
        ∃ t, operandOf i s = .target t ∧ t.toNat = 256 * (s.read hi).toNat + (s.read w).toNat)

/-! ### Arithmetic (42_arithmetic.md) -/

/-- ADC, all eight forms (42_arithmetic.md R191, R192): the exact sum, its carry and its overflow; every other flag and
register and the memory as before. -/
def Obligations.AdcAddsWithCarry : Prop :=
  let forms : List (Byte × Mode) := [(0x69#8, .IMM), (0x65#8, .ZP), (0x75#8, .ZPX), (0x6D#8, .ABS), (0x7D#8, .ABSX),
    (0x79#8, .ABSY), (0x61#8, .INDX), (0x71#8, .INDY)]
  ∀ (i : Instr) (s : State), i.opcode ∈ forms.map Prod.fst → (i.opcode, i.mode) ∈ forms ∧
    ∃ m r t, (operandOf i s).load s = some m ∧
      r.toNat = (s.a.toNat + m.toNat + s.p.c.toNat) % 256 ∧ exec i s = .next t ∧ MovesPast i s t ∧
      t = { s with
        a := r
        p := { s.p with
          c := decide (s.a.toNat + m.toNat + s.p.c.toNat > 255)
          v := decide (s.a.msb = m.msb ∧ r.msb ≠ s.a.msb)
          z := decide (r.toNat = 0)
          n := decide (128 ≤ r.toNat) }
        pc := t.pc }

/-- SBC, all eight forms (42_arithmetic.md R193): ADC of the operand's one's complement, 255 minus the operand. What C then
says of a borrow is in `CarryAndOverflowOfTheAdder`. -/
def Obligations.SbcSubtractsWithBorrow : Prop :=
  let forms : List (Byte × Mode) := [(0xE9#8, .IMM), (0xE5#8, .ZP), (0xF5#8, .ZPX), (0xED#8, .ABS), (0xFD#8, .ABSX),
    (0xF9#8, .ABSY), (0xE1#8, .INDX), (0xF1#8, .INDY)]
  ∀ (i : Instr) (s : State), i.opcode ∈ forms.map Prod.fst → (i.opcode, i.mode) ∈ forms ∧
    ∃ m r t, (operandOf i s).load s = some m ∧
      r.toNat = (s.a.toNat + (255 - m.toNat) + s.p.c.toNat) % 256 ∧ exec i s = .next t ∧ MovesPast i s t ∧
      t = { s with
        a := r
        p := { s.p with
          c := decide (s.a.toNat + (255 - m.toNat) + s.p.c.toNat > 255)
          v := decide (s.a.msb = (~~~m).msb ∧ r.msb ≠ s.a.msb)
          z := decide (r.toNat = 0)
          n := decide (128 ≤ r.toNat) }
        pc := t.pc }

/-- What C and V of the adder say (42_arithmetic.md R204; for SBC's C the inference R193 marks as derived from R191): after
ADC, V is set exactly when the signed sum does not fit a byte, and when it is clear the signed result is exact; after SBC, V
is set exactly when the signed difference does not fit, C, the not-borrow, exactly when nothing is borrowed, and the
result is the difference modulo 256. -/
def Obligations.CarryAndOverflowOfTheAdder : Prop :=
  ∀ (a m : Byte) (cin : Bool),
    ((add8 a m cin).overflow = true ↔
      signed8 a + signed8 m + cin.toNat < -128 ∨ 127 < signed8 a + signed8 m + cin.toNat) ∧
      ((add8 a m cin).overflow = false → signed8 (add8 a m cin).result = signed8 a + signed8 m + cin.toNat) ∧
      ((add8 a (~~~m) cin).overflow = true ↔
        signed8 a - signed8 m - (1 - cin.toNat) < -128 ∨ 127 < signed8 a - signed8 m - (1 - cin.toNat)) ∧
      ((add8 a (~~~m) cin).carry = true ↔ (a.toNat : Int) - m.toNat - (1 - cin.toNat) ≥ 0) ∧
      ((add8 a (~~~m) cin).result.toNat : Int) = ((a.toNat : Int) - m.toNat - (1 - cin.toNat)) % 256

/-- CMP, CPX and CPY, all forms (42_arithmetic.md R194 to R197): C is the unsigned comparison, Z equality, N bit 7 of the
difference; V and the registers are not changed. -/
def Obligations.ComparesWriteCarryZeroNegative : Prop :=
  let cmp : List (Byte × Mode) := [(0xC9#8, .IMM), (0xC5#8, .ZP), (0xD5#8, .ZPX), (0xCD#8, .ABS), (0xDD#8, .ABSX),
    (0xD9#8, .ABSY), (0xC1#8, .INDX), (0xD1#8, .INDY)]
  let cpx : List (Byte × Mode) := [(0xE0#8, .IMM), (0xE4#8, .ZP), (0xEC#8, .ABS)]
  let cpy : List (Byte × Mode) := [(0xC0#8, .IMM), (0xC4#8, .ZP), (0xCC#8, .ABS)]
  ∀ (i : Instr) (s : State) (reg : Byte),
    (i.opcode ∈ cmp.map Prod.fst ∧ reg = s.a ∨ i.opcode ∈ cpx.map Prod.fst ∧ reg = s.x ∨
      i.opcode ∈ cpy.map Prod.fst ∧ reg = s.y) → (i.opcode, i.mode) ∈ cmp ++ cpx ++ cpy ∧
    ∃ m t, (operandOf i s).load s = some m ∧ exec i s = .next t ∧ MovesPast i s t ∧
      t = { s with
        p := { s.p with
          c := decide (m.toNat ≤ reg.toNat)
          z := decide (reg = m)
          n := decide (128 ≤ (reg.toNat + 256 - m.toNat) % 256) }
        pc := t.pc }

/-- INC and DEC, all forms (42_arithmetic.md R198, R199): the byte at the effective address of the resolver becomes itself
plus or minus 1 modulo 256; Z and N are written; everything else is as before. R198's "one read and one write" (decision
D19) cannot be observed and is not stated. -/
def Obligations.IncAndDecChangeOneByte : Prop :=
  let inc : List (Byte × Mode) := [(0xE6#8, .ZP), (0xF6#8, .ZPX), (0xEE#8, .ABS), (0xFE#8, .ABSX)]
  let dec : List (Byte × Mode) := [(0xC6#8, .ZP), (0xD6#8, .ZPX), (0xCE#8, .ABS), (0xDE#8, .ABSX)]
  ∀ (i : Instr) (s : State) (delta : Nat),
    (i.opcode ∈ inc.map Prod.fst ∧ delta = 1 ∨ i.opcode ∈ dec.map Prod.fst ∧ delta = 255) →
    (i.opcode, i.mode) ∈ inc ++ dec ∧
    ∃ ea t, operandOf i s = .addr ea ∧ exec i s = .next t ∧ MovesPast i s t ∧
      (t.read ea).toNat = ((s.read ea).toNat + delta) % 256 ∧ (∀ addr, addr ≠ ea → t.read addr = s.read addr) ∧
      t = { s with
        mem := t.mem
        p := { s.p with z := decide ((t.read ea).toNat = 0), n := decide (128 ≤ (t.read ea).toNat) }
        pc := t.pc }

/-- INX, INY, DEX and DEY (42_arithmetic.md R200 to R203): the index register plus or minus 1 modulo 256, and Z and N of
it; everything else is as before. -/
def Obligations.IndexRegistersStepByOne : Prop :=
  ∀ (i : Instr) (s : State), i.opcode ∈ [0xE8#8, 0xC8#8, 0xCA#8, 0x88#8] → i.mode = .IMP ∧
    ∃ r t, exec i s = .next t ∧ MovesPast i s t ∧
      (i.opcode = 0xE8#8 → r.toNat = (s.x.toNat + 1) % 256) ∧ (i.opcode = 0xC8#8 → r.toNat = (s.y.toNat + 1) % 256) ∧
      (i.opcode = 0xCA#8 → r.toNat = (s.x.toNat + 255) % 256) ∧ (i.opcode = 0x88#8 → r.toNat = (s.y.toNat + 255) % 256) ∧
      t = { s with
        x := if i.opcode = 0xE8#8 ∨ i.opcode = 0xCA#8 then r else s.x
        y := if i.opcode = 0xC8#8 ∨ i.opcode = 0x88#8 then r else s.y
        p := { s.p with z := decide (r.toNat = 0), n := decide (128 ≤ r.toNat) }
        pc := t.pc }

/-! ### Shifts and logic (43_shift_logic.md) -/

/-- ASL, LSR, ROL and ROR, all forms (43_shift_logic.md R231 to R234): the result and the bit shifted off as numbers, with
the prior carry fed in by ROL and ROR; stored back in A, or at the effective address of the resolver; C, Z and N written;
every other flag, register and byte as before. -/
def Obligations.ShiftsAndRotates : Prop :=
  let asl : List (Byte × Mode) := [(0x0A#8, .ACC), (0x06#8, .ZP), (0x16#8, .ZPX), (0x0E#8, .ABS), (0x1E#8, .ABSX)]
  let lsr : List (Byte × Mode) := [(0x4A#8, .ACC), (0x46#8, .ZP), (0x56#8, .ZPX), (0x4E#8, .ABS), (0x5E#8, .ABSX)]
  let rol : List (Byte × Mode) := [(0x2A#8, .ACC), (0x26#8, .ZP), (0x36#8, .ZPX), (0x2E#8, .ABS), (0x3E#8, .ABSX)]
  let ror : List (Byte × Mode) := [(0x6A#8, .ACC), (0x66#8, .ZP), (0x76#8, .ZPX), (0x6E#8, .ABS), (0x7E#8, .ABSX)]
  ∀ (i : Instr) (s : State), i.opcode ∈ (asl ++ lsr ++ rol ++ ror).map Prod.fst →
    (i.opcode, i.mode) ∈ asl ++ lsr ++ rol ++ ror ∧
    ∃ v r carry t, (operandOf i s).load s = some v ∧ exec i s = .next t ∧ MovesPast i s t ∧
      (i.opcode ∈ asl.map Prod.fst → r.toNat = v.toNat * 2 % 256 ∧ carry = decide (128 ≤ v.toNat)) ∧
      (i.opcode ∈ lsr.map Prod.fst → r.toNat = v.toNat / 2 ∧ carry = decide (v.toNat % 2 = 1)) ∧
      (i.opcode ∈ rol.map Prod.fst → r.toNat = v.toNat * 2 % 256 + s.p.c.toNat ∧ carry = decide (128 ≤ v.toNat)) ∧
      (i.opcode ∈ ror.map Prod.fst → r.toNat = v.toNat / 2 + 128 * s.p.c.toNat ∧ carry = decide (v.toNat % 2 = 1)) ∧
      (i.mode = .ACC → t.a = r ∧ t.mem = s.mem) ∧
      (i.mode ≠ .ACC → t.a = s.a ∧ ∃ ea, operandOf i s = .addr ea ∧ t.read ea = r ∧
        ∀ addr, addr ≠ ea → t.read addr = s.read addr) ∧
      t = { s with
        a := t.a
        mem := t.mem
        p := { s.p with c := carry, z := decide (r.toNat = 0), n := decide (128 ≤ r.toNat) }
        pc := t.pc }

/-- ROR undoes ROL, and nine successive ROLs restore both the value and the carry (43_shift_logic.md R233, which the spec
derives from its own rule). -/
def Obligations.RotatesRunThroughNineBits : Prop :=
  let rol : Byte × Bool → Byte × Bool := fun vc => ((rol8 vc.1 vc.2).result, (rol8 vc.1 vc.2).carry)
  (∀ v c, (rol (rol (rol (rol (rol (rol (rol (rol (rol (v, c)))))))))) = (v, c)) ∧
    ∀ s t : State, exec .rolAcc s = .next t → ∃ u, exec .rorAcc t = .next u ∧ u.a = s.a ∧ u.p.c = s.p.c ∧ u.mem = s.mem

/-- AND, ORA and EOR, all forms (43_shift_logic.md R235 to R237): bit by bit on A, and Z and N of the result. -/
def Obligations.LogicOnTheAccumulator : Prop :=
  let and : List (Byte × Mode) := [(0x29#8, .IMM), (0x25#8, .ZP), (0x35#8, .ZPX), (0x2D#8, .ABS), (0x3D#8, .ABSX),
    (0x39#8, .ABSY), (0x21#8, .INDX), (0x31#8, .INDY)]
  let ora : List (Byte × Mode) := [(0x09#8, .IMM), (0x05#8, .ZP), (0x15#8, .ZPX), (0x0D#8, .ABS), (0x1D#8, .ABSX),
    (0x19#8, .ABSY), (0x01#8, .INDX), (0x11#8, .INDY)]
  let eor : List (Byte × Mode) := [(0x49#8, .IMM), (0x45#8, .ZP), (0x55#8, .ZPX), (0x4D#8, .ABS), (0x5D#8, .ABSX),
    (0x59#8, .ABSY), (0x41#8, .INDX), (0x51#8, .INDY)]
  ∀ (i : Instr) (s : State), i.opcode ∈ (and ++ ora ++ eor).map Prod.fst → (i.opcode, i.mode) ∈ and ++ ora ++ eor ∧
    ∃ m r t, (operandOf i s).load s = some m ∧ exec i s = .next t ∧ MovesPast i s t ∧
      (i.opcode ∈ and.map Prod.fst → ∀ k, r.getLsbD k = (s.a.getLsbD k && m.getLsbD k)) ∧
      (i.opcode ∈ ora.map Prod.fst → ∀ k, r.getLsbD k = (s.a.getLsbD k || m.getLsbD k)) ∧
      (i.opcode ∈ eor.map Prod.fst → ∀ k, r.getLsbD k = (s.a.getLsbD k ^^ m.getLsbD k)) ∧
      t = { s with
        a := r
        p := { s.p with z := decide (r.toNat = 0), n := decide (128 ≤ r.toNat) }
        pc := t.pc }

/-- BIT, both forms (43_shift_logic.md R238): Z from `A & M`, N and V copied from bits 7 and 6 of the operand, A unchanged. -/
def Obligations.BitTestsAgainstTheAccumulator : Prop :=
  let forms : List (Byte × Mode) := [(0x24#8, .ZP), (0x2C#8, .ABS)]
  ∀ (i : Instr) (s : State), i.opcode ∈ forms.map Prod.fst → (i.opcode, i.mode) ∈ forms ∧
    ∃ m t, (operandOf i s).load s = some m ∧ exec i s = .next t ∧ MovesPast i s t ∧
      t = { s with
        p := { s.p with
          z := decide (s.a.toNat &&& m.toNat = 0)
          n := m.getLsbD 7
          v := m.getLsbD 6 }
        pc := t.pc }

/-! ### Branches and jumps (44_branch_jump.md) -/

/-- The eight branches (44_branch_jump.md R261 to R268): each tests one flag; taken, PC is the relative target of the
resolver, whose base is the spec's decision D2; not taken, PC advances by 2, modulo 65,536 (decision D3); no flag, register
or byte is written. -/
def Obligations.BranchesTestOneFlag : Prop :=
  ∀ (i : Instr) (s : State) (taken : Bool),
    (i.opcode, taken) ∈ [(0x90#8, !s.p.c), (0xB0#8, s.p.c), (0xF0#8, s.p.z), (0xD0#8, !s.p.z), (0x30#8, s.p.n),
      (0x10#8, !s.p.n), (0x50#8, !s.p.v), (0x70#8, s.p.v)] →
    i.mode = .REL ∧ ∃ t, operandOf i s = .target t ∧
      exec i s = .next { s with pc := if taken then t else s.pc + 2#16 }

/-- A taken branch never leaves the 256-byte page of its own opcode, an offset of 0 branches to itself, and a branch that is
not taken continues at PC + 2 modulo 65,536 (44_branch_jump.md R271, which the spec derives from R170 and R260, and so
from its decisions D2 and D3). -/
def Obligations.TakenBranchStaysInItsPage : Prop :=
  ∀ (i : Instr) (s t : State), i.mode = .REL → exec i s = .next t →
    (branchTaken i.mnemonic s.p = true → t.pc.toNat / 256 = s.pc.toNat / 256) ∧
      (branchTaken i.mnemonic s.p = true → i.addressing = .rel 0x00#8 → t = s) ∧
      (branchTaken i.mnemonic s.p = true → i.addressing = .rel 0x02#8 → s.pc.toNat % 256 < 254 → t.pc = s.pc + 2#16) ∧
      (branchTaken i.mnemonic s.p = false → t.pc.toNat = (s.pc.toNat + 2) % 65536)

/-- JMP absolute and indirect (44_branch_jump.md R269, R270): PC is the operand, or the pair at the pointer whose high byte
is read within the pointer's page; nothing else changes. -/
def Obligations.JumpsSetPc : Prop :=
  ∀ (i : Instr) (s : State) (w : Addr),
    (i.opcode = 0x4C#8 → i.addressing = .abs w → exec i s = .next { s with pc := w }) ∧
      (i.opcode = 0x6C#8 → i.addressing = .ind w → ∀ hi : Addr,
        hi.toNat = 256 * (w.toNat / 256) + (w.toNat % 256 + 1) % 256 →
        ∃ t, t.toNat = 256 * (s.read hi).toNat + (s.read w).toNat ∧ exec i s = .next { s with pc := t }) ∧
      (i.opcode = 0x4C#8 → ∃ u, i.addressing = .abs u) ∧ (i.opcode = 0x6C#8 → ∃ u, i.addressing = .ind u)

/-! ### Stack, subroutine, trap (45_stack_subroutine.md) -/

/-- PHA and PLA (45_stack_subroutine.md R280, R282): the byte is written at 0x0100 + SP before SP goes down, read at
0x0100 + SP after SP goes up, both modulo 256; PLA writes Z and N; everything else is as before; and a PHA then a PLA
return the byte and restore SP. -/
def Obligations.PushAndPullAccumulator : Prop :=
  Instr.pha.opcode = 0x48#8 ∧ Instr.pla.opcode = 0x68#8 ∧
    ∀ (s : State) (slot pulledSlot : Addr), slot.toNat = 256 + s.sp.toNat →
      pulledSlot.toNat = 256 + (s.sp.toNat + 1) % 256 →
      (∃ t u, exec .pha s = .next t ∧ MovesPast .pha s t ∧ t.read slot = s.a ∧
        (∀ addr, addr ≠ slot → t.read addr = s.read addr) ∧ t = { s with mem := t.mem, sp := s.sp - 1#8, pc := t.pc } ∧
        exec .pla t = .next u ∧ u.a = s.a ∧ u.sp = s.sp) ∧
      ∃ t, exec .pla s = .next t ∧ MovesPast .pla s t ∧ t = { s with
        a := s.read pulledSlot
        sp := s.sp + 1#8
        p := { s.p with z := decide ((s.read pulledSlot).toNat = 0), n := decide (128 ≤ (s.read pulledSlot).toNat) }
        pc := t.pc }

/-- PHP and PLP (45_stack_subroutine.md R281, R283): PHP pushes the packed status with bits 4 and 5 set and changes no flag;
PLP loads the seven stored flags from the pulled byte. The values of bits 4 and 5 and the stored B are the spec's decision
D8, the wrap of PC its D3. -/
def Obligations.PushAndPullStatus : Prop :=
  Instr.php.opcode = 0x08#8 ∧ Instr.plp.opcode = 0x28#8 ∧ ∀ (s : State) (slot pulledSlot : Addr), slot.toNat = 256 + s.sp.toNat →
    pulledSlot.toNat = 256 + (s.sp.toNat + 1) % 256 →
    (∃ t, exec .php s = .next t ∧ t.read slot = readP s.p ||| 0x30#8 ∧
      (∀ addr, addr ≠ slot → t.read addr = s.read addr) ∧
      t = { s with mem := t.mem, sp := s.sp - 1#8, pc := s.pc + 1#16 }) ∧
    ∃ p : Flags, readP p = s.read pulledSlot ||| 0x20#8 ∧
      exec .plp s = .next { s with sp := s.sp + 1#8, p := p, pc := s.pc + 1#16 }

/-- JSR (45_stack_subroutine.md R284): the address of its last byte, PC + 2, is pushed high byte first, then PC is the
target; no flag changes and every other byte is as before. That the target is captured before the pushes is the spec's
decision D20. -/
def Obligations.JsrPushesReturnAddress : Prop :=
  ∀ (s : State) (w high low : Addr), high.toNat = 256 + s.sp.toNat → low.toNat = 256 + (s.sp.toNat + 255) % 256 →
    (Instr.jsrAbs w).opcode = 0x20#8 ∧ ∃ t, exec (.jsrAbs w) s = .next t ∧
      256 * (t.read high).toNat + (t.read low).toNat = (s.pc.toNat + 2) % 65536 ∧
      (∀ addr, addr ≠ high → addr ≠ low → t.read addr = s.read addr) ∧
      t = { s with mem := t.mem, sp := s.sp - 2#8, pc := w }

/-- RTS (45_stack_subroutine.md R285): the low byte is pulled, then the high byte, and PC is that word plus 1, modulo
65,536; no flag and no byte is written; and a JSR immediately followed by RTS restores PC to the instruction after the JSR,
and SP. -/
def Obligations.RtsPullsReturnAddress : Prop :=
  Instr.rts.opcode = 0x60#8 ∧
    (∀ (s : State) (low high : Addr), low.toNat = 256 + (s.sp.toNat + 1) % 256 → high.toNat = 256 + (s.sp.toNat + 2) % 256 →
      ∃ pc : Addr, pc.toNat = (256 * (s.read high).toNat + (s.read low).toNat + 1) % 65536 ∧
        exec .rts s = .next { s with sp := s.sp + 2#8, pc := pc }) ∧
    ∀ (s : State) (w : Addr), ∃ t u, exec (.jsrAbs w) s = .next t ∧ t.pc = w ∧ exec .rts t = .next u ∧
      u = { s with mem := t.mem, pc := s.pc + 3#16 }

/-- BRK takes the software trap (45_stack_subroutine.md R286; 60_exceptions.md R355; the spec's decision D9): PC + 2 is
pushed high byte first, then the status with bits 4 and 5 set; B and I are set, D is not changed; PC is loaded from
0xFFFE and 0xFFFF; every other byte is as before, and the core goes on running. -/
def Obligations.BrkTakesTheTrap : Prop :=
  Instr.brk.opcode = 0x00#8 ∧ ∀ (s : State) (high low status : Addr), high.toNat = 256 + s.sp.toNat → low.toNat = 256 + (s.sp.toNat + 255) % 256 →
    status.toNat = 256 + (s.sp.toNat + 254) % 256 →
    ∃ t pc, exec .brk s = .next t ∧
      256 * (t.read high).toNat + (t.read low).toNat = (s.pc.toNat + 2) % 65536 ∧
      t.read status = readP s.p ||| 0x30#8 ∧
      (∀ addr, addr ≠ high → addr ≠ low → addr ≠ status → t.read addr = s.read addr) ∧
      pc.toNat = 256 * (s.read 0xFFFF#16).toNat + (s.read 0xFFFE#16).toNat ∧
      t = { s with mem := t.mem, sp := s.sp - 3#8, p := { s.p with b := true, i := true }, pc := pc }

/-- RTI returns (45_stack_subroutine.md R287; the spec's decision D10): the status is pulled, bit 5 ignored, then the low
and the high byte of PC, with no +1. -/
def Obligations.RtiReturns : Prop :=
  Instr.rti.opcode = 0x40#8 ∧ ∀ (s : State) (status low high : Addr), status.toNat = 256 + (s.sp.toNat + 1) % 256 →
    low.toNat = 256 + (s.sp.toNat + 2) % 256 → high.toNat = 256 + (s.sp.toNat + 3) % 256 →
    ∃ (p : Flags) (pc : Addr), readP p = s.read status ||| 0x20#8 ∧
      pc.toNat = 256 * (s.read high).toNat + (s.read low).toNat ∧
      exec .rti s = .next { s with sp := s.sp + 3#8, p := p, pc := pc }

/-- After a BRK, RTI resumes at the BRK's address plus 2 with the flags BRK saw, except that B is 1, and with SP restored
(45_stack_subroutine.md R287, corner cases; decisions D9, D10). -/
def Obligations.BrkThenRtiResumes : Prop :=
  ∀ s : State, ∃ t u, exec .brk s = .next t ∧ exec .rti t = .next u ∧
    u = { s with mem := t.mem, p := { s.p with b := true }, pc := s.pc + 2#16 }

/-! ### Loads, stores, transfers (46_load_store_transfer.md) -/

/-- LDA, LDX and LDY, all forms (46_load_store_transfer.md R300 to R302): the register is the operand, Z and N are its, and
everything else is as before. -/
def Obligations.LoadsSetRegisterAndFlags : Prop :=
  let lda : List (Byte × Mode) := [(0xA9#8, .IMM), (0xA5#8, .ZP), (0xB5#8, .ZPX), (0xAD#8, .ABS), (0xBD#8, .ABSX),
    (0xB9#8, .ABSY), (0xA1#8, .INDX), (0xB1#8, .INDY)]
  let ldx : List (Byte × Mode) := [(0xA2#8, .IMM), (0xA6#8, .ZP), (0xB6#8, .ZPY), (0xAE#8, .ABS), (0xBE#8, .ABSY)]
  let ldy : List (Byte × Mode) := [(0xA0#8, .IMM), (0xA4#8, .ZP), (0xB4#8, .ZPX), (0xAC#8, .ABS), (0xBC#8, .ABSX)]
  ∀ (i : Instr) (s : State), i.opcode ∈ (lda ++ ldx ++ ldy).map Prod.fst → (i.opcode, i.mode) ∈ lda ++ ldx ++ ldy ∧
    ∃ m t, (operandOf i s).load s = some m ∧ exec i s = .next t ∧ MovesPast i s t ∧
      t = { s with
        a := if i.opcode ∈ lda.map Prod.fst then m else s.a
        x := if i.opcode ∈ ldx.map Prod.fst then m else s.x
        y := if i.opcode ∈ ldy.map Prod.fst then m else s.y
        p := { s.p with z := decide (m.toNat = 0), n := decide (128 ≤ m.toNat) }
        pc := t.pc }

/-- STA, all seven forms (46_load_store_transfer.md R303): A is stored at the effective address of the resolver; no flag
and no register but PC changes; every other byte is as before. The absent read is the spec's decision D19, not observable;
the wrap of PC is its D3. -/
def Obligations.StaStoresTheAccumulator : Prop :=
  let forms : List (Byte × Mode) := [(0x85#8, .ZP), (0x95#8, .ZPX), (0x8D#8, .ABS), (0x9D#8, .ABSX), (0x99#8, .ABSY),
    (0x81#8, .INDX), (0x91#8, .INDY)]
  ∀ (i : Instr) (s : State), i.opcode ∈ forms.map Prod.fst → (i.opcode, i.mode) ∈ forms ∧
    ∃ ea t, operandOf i s = .addr ea ∧ exec i s = .next t ∧ t.read ea = s.a ∧
      (∀ addr, addr ≠ ea → t.read addr = s.read addr) ∧
      t = { s with mem := t.mem, pc := s.pc + BitVec.ofNat 16 i.mode.length }

/-- STX and STY, all forms (46_load_store_transfer.md R304, R305): the index register is stored at the effective address of
the resolver; nothing else changes but PC. -/
def Obligations.StxAndStyStoreTheIndex : Prop :=
  let stx : List (Byte × Mode) := [(0x86#8, .ZP), (0x96#8, .ZPY), (0x8E#8, .ABS)]
  let sty : List (Byte × Mode) := [(0x84#8, .ZP), (0x94#8, .ZPX), (0x8C#8, .ABS)]
  ∀ (i : Instr) (s : State), i.opcode ∈ (stx ++ sty).map Prod.fst → (i.opcode, i.mode) ∈ stx ++ sty ∧
    ∃ ea t, operandOf i s = .addr ea ∧ exec i s = .next t ∧ MovesPast i s t ∧
      t.read ea = (if i.opcode ∈ stx.map Prod.fst then s.x else s.y) ∧
      (∀ addr, addr ≠ ea → t.read addr = s.read addr) ∧
      t = { s with mem := t.mem, pc := t.pc }

/-- The six transfers (46_load_store_transfer.md R306 to R311): the register copied, Z and N of the copy, and no flag at all
for TXS; everything else is as before. -/
def Obligations.TransfersCopyARegister : Prop :=
  ∀ (i : Instr) (s : State), i.opcode ∈ [0xAA#8, 0xA8#8, 0x8A#8, 0x98#8, 0xBA#8, 0x9A#8] → i.mode = .IMP ∧
    ∃ v t, exec i s = .next t ∧ MovesPast i s t ∧
      (i.opcode = 0xAA#8 ∨ i.opcode = 0xA8#8 → v = s.a) ∧ (i.opcode = 0x8A#8 ∨ i.opcode = 0x9A#8 → v = s.x) ∧
      (i.opcode = 0x98#8 → v = s.y) ∧ (i.opcode = 0xBA#8 → v = s.sp) ∧
      t = { s with
        a := if i.opcode = 0x8A#8 ∨ i.opcode = 0x98#8 then v else s.a
        x := if i.opcode = 0xAA#8 ∨ i.opcode = 0xBA#8 then v else s.x
        y := if i.opcode = 0xA8#8 then v else s.y
        sp := if i.opcode = 0x9A#8 then v else s.sp
        p := if i.opcode = 0x9A#8 then s.p else { s.p with z := decide (v.toNat = 0), n := decide (128 ≤ v.toNat) }
        pc := t.pc }

/-! ### Flags and NOP (47_flags_misc.md) -/

/-- The seven flag instructions and NOP (47_flags_misc.md R330 to R337): exactly one flag written with the value the
mnemonic says, none by NOP, which goes on at PC + 1; everything else is as before. -/
def Obligations.FlagInstructionsWriteOneFlag : Prop :=
  ∀ (i : Instr) (s : State),
    (∀ f b, (i.opcode, f, b) ∈ [(0x18#8, FlagName.C, false), (0x38#8, .C, true), (0x58#8, .I, false), (0x78#8, .I, true),
        (0xD8#8, .D, false), (0xF8#8, .D, true), (0xB8#8, .V, false)] →
      i.mode = .IMP ∧ ∃ t, exec i s = .next t ∧ MovesPast i s t ∧ getFlag f t.p = b ∧
        (∀ g, g ≠ f → getFlag g t.p = getFlag g s.p) ∧ t = { s with p := t.p, pc := t.pc }) ∧
      (i.opcode = 0xEA#8 → i.mode = .IMP ∧ exec i s = .next { s with pc := s.pc + 1#16 })

/-! ### Timing, which is informative -/

/-- The informative extra cycles (70_reset_and_hazards.md R393): in the table's extra column a page-crossing extra belongs to
the ABSX, ABSY and INDY reads only, and a taken branch costs 2 extra cycles only when its opcode is at xxFE or xxFF, which the spec derives from
R170. No step reads a count. -/
def Obligations.ExtraCyclesWhereTheSpecHasThem : Prop :=
  (∀ i : Instr,
    (extraKind i.opcode = .pageCross ↔ i.mode ∈ [Mode.ABSX, .ABSY, .INDY] ∧
      i.mnemonic ∈ [Mnemonic.ADC, .AND, .CMP, .EOR, .LDA, .LDX, .LDY, .ORA, .SBC]) ∧
      (extraKind i.opcode = .branch ↔ i.mode = .REL)) ∧
    ∀ (i : Instr) (s : State), i.mode = .REL →
      extraCycles i .branch s = (if branchTaken i.mnemonic s.p then (if 254 ≤ s.pc.toNat % 256 then 2 else 1) else 0)
end

