-- ==== Sys2Proof/Laws/PerInstr.lean ====
section
/-! SUPPORT. The family `OpcodeRow`: the decode table's row at an instruction's opcode builds that instruction from its
operand bytes and carries its mnemonic, its mode and the mode's length. One lemma for each constructor. -/

namespace Sys2Proof.Laws.OpcodeRow

/-- The row at the instruction's opcode is legal, has its operation and mode, has the mode's length, and its operation
takes the mode. -/
def Statement (i : Instr) : Prop :=
  (describeOpcode i.opcode).map (fun d => (d.operation, d.mode, d.length)) = some (i.mnemonic, i.mode, i.mode.length) ∧
    i.wellFormed = true

theorem adcImm (v : Byte) : Statement (.adcImm v) := by exact ⟨rfl, rfl⟩
theorem adcZp (z : Byte) : Statement (.adcZp z) := by exact ⟨rfl, rfl⟩
theorem adcZpx (z : Byte) : Statement (.adcZpx z) := by exact ⟨rfl, rfl⟩
theorem adcAbs (w : Addr) : Statement (.adcAbs w) := by exact ⟨rfl, rfl⟩
theorem adcAbsx (w : Addr) : Statement (.adcAbsx w) := by exact ⟨rfl, rfl⟩
theorem adcAbsy (w : Addr) : Statement (.adcAbsy w) := by exact ⟨rfl, rfl⟩
theorem adcIndx (z : Byte) : Statement (.adcIndx z) := by exact ⟨rfl, rfl⟩
theorem adcIndy (z : Byte) : Statement (.adcIndy z) := by exact ⟨rfl, rfl⟩
theorem sbcImm (v : Byte) : Statement (.sbcImm v) := by exact ⟨rfl, rfl⟩
theorem sbcZp (z : Byte) : Statement (.sbcZp z) := by exact ⟨rfl, rfl⟩
theorem sbcZpx (z : Byte) : Statement (.sbcZpx z) := by exact ⟨rfl, rfl⟩
theorem sbcAbs (w : Addr) : Statement (.sbcAbs w) := by exact ⟨rfl, rfl⟩
theorem sbcAbsx (w : Addr) : Statement (.sbcAbsx w) := by exact ⟨rfl, rfl⟩
theorem sbcAbsy (w : Addr) : Statement (.sbcAbsy w) := by exact ⟨rfl, rfl⟩
theorem sbcIndx (z : Byte) : Statement (.sbcIndx z) := by exact ⟨rfl, rfl⟩
theorem sbcIndy (z : Byte) : Statement (.sbcIndy z) := by exact ⟨rfl, rfl⟩
theorem cmpImm (v : Byte) : Statement (.cmpImm v) := by exact ⟨rfl, rfl⟩
theorem cmpZp (z : Byte) : Statement (.cmpZp z) := by exact ⟨rfl, rfl⟩
theorem cmpZpx (z : Byte) : Statement (.cmpZpx z) := by exact ⟨rfl, rfl⟩
theorem cmpAbs (w : Addr) : Statement (.cmpAbs w) := by exact ⟨rfl, rfl⟩
theorem cmpAbsx (w : Addr) : Statement (.cmpAbsx w) := by exact ⟨rfl, rfl⟩
theorem cmpAbsy (w : Addr) : Statement (.cmpAbsy w) := by exact ⟨rfl, rfl⟩
theorem cmpIndx (z : Byte) : Statement (.cmpIndx z) := by exact ⟨rfl, rfl⟩
theorem cmpIndy (z : Byte) : Statement (.cmpIndy z) := by exact ⟨rfl, rfl⟩
theorem cpxImm (v : Byte) : Statement (.cpxImm v) := by exact ⟨rfl, rfl⟩
theorem cpxZp (z : Byte) : Statement (.cpxZp z) := by exact ⟨rfl, rfl⟩
theorem cpxAbs (w : Addr) : Statement (.cpxAbs w) := by exact ⟨rfl, rfl⟩
theorem cpyImm (v : Byte) : Statement (.cpyImm v) := by exact ⟨rfl, rfl⟩
theorem cpyZp (z : Byte) : Statement (.cpyZp z) := by exact ⟨rfl, rfl⟩
theorem cpyAbs (w : Addr) : Statement (.cpyAbs w) := by exact ⟨rfl, rfl⟩
theorem incZp (z : Byte) : Statement (.incZp z) := by exact ⟨rfl, rfl⟩
theorem incZpx (z : Byte) : Statement (.incZpx z) := by exact ⟨rfl, rfl⟩
theorem incAbs (w : Addr) : Statement (.incAbs w) := by exact ⟨rfl, rfl⟩
theorem incAbsx (w : Addr) : Statement (.incAbsx w) := by exact ⟨rfl, rfl⟩
theorem decZp (z : Byte) : Statement (.decZp z) := by exact ⟨rfl, rfl⟩
theorem decZpx (z : Byte) : Statement (.decZpx z) := by exact ⟨rfl, rfl⟩
theorem decAbs (w : Addr) : Statement (.decAbs w) := by exact ⟨rfl, rfl⟩
theorem decAbsx (w : Addr) : Statement (.decAbsx w) := by exact ⟨rfl, rfl⟩
theorem inx : Statement (.inx) := by exact ⟨rfl, rfl⟩
theorem iny : Statement (.iny) := by exact ⟨rfl, rfl⟩
theorem dex : Statement (.dex) := by exact ⟨rfl, rfl⟩
theorem dey : Statement (.dey) := by exact ⟨rfl, rfl⟩
theorem aslAcc : Statement (.aslAcc) := by exact ⟨rfl, rfl⟩
theorem aslZp (z : Byte) : Statement (.aslZp z) := by exact ⟨rfl, rfl⟩
theorem aslZpx (z : Byte) : Statement (.aslZpx z) := by exact ⟨rfl, rfl⟩
theorem aslAbs (w : Addr) : Statement (.aslAbs w) := by exact ⟨rfl, rfl⟩
theorem aslAbsx (w : Addr) : Statement (.aslAbsx w) := by exact ⟨rfl, rfl⟩
theorem lsrAcc : Statement (.lsrAcc) := by exact ⟨rfl, rfl⟩
theorem lsrZp (z : Byte) : Statement (.lsrZp z) := by exact ⟨rfl, rfl⟩
theorem lsrZpx (z : Byte) : Statement (.lsrZpx z) := by exact ⟨rfl, rfl⟩
theorem lsrAbs (w : Addr) : Statement (.lsrAbs w) := by exact ⟨rfl, rfl⟩
theorem lsrAbsx (w : Addr) : Statement (.lsrAbsx w) := by exact ⟨rfl, rfl⟩
theorem rolAcc : Statement (.rolAcc) := by exact ⟨rfl, rfl⟩
theorem rolZp (z : Byte) : Statement (.rolZp z) := by exact ⟨rfl, rfl⟩
theorem rolZpx (z : Byte) : Statement (.rolZpx z) := by exact ⟨rfl, rfl⟩
theorem rolAbs (w : Addr) : Statement (.rolAbs w) := by exact ⟨rfl, rfl⟩
theorem rolAbsx (w : Addr) : Statement (.rolAbsx w) := by exact ⟨rfl, rfl⟩
theorem rorAcc : Statement (.rorAcc) := by exact ⟨rfl, rfl⟩
theorem rorZp (z : Byte) : Statement (.rorZp z) := by exact ⟨rfl, rfl⟩
theorem rorZpx (z : Byte) : Statement (.rorZpx z) := by exact ⟨rfl, rfl⟩
theorem rorAbs (w : Addr) : Statement (.rorAbs w) := by exact ⟨rfl, rfl⟩
theorem rorAbsx (w : Addr) : Statement (.rorAbsx w) := by exact ⟨rfl, rfl⟩
theorem andImm (v : Byte) : Statement (.andImm v) := by exact ⟨rfl, rfl⟩
theorem andZp (z : Byte) : Statement (.andZp z) := by exact ⟨rfl, rfl⟩
theorem andZpx (z : Byte) : Statement (.andZpx z) := by exact ⟨rfl, rfl⟩
theorem andAbs (w : Addr) : Statement (.andAbs w) := by exact ⟨rfl, rfl⟩
theorem andAbsx (w : Addr) : Statement (.andAbsx w) := by exact ⟨rfl, rfl⟩
theorem andAbsy (w : Addr) : Statement (.andAbsy w) := by exact ⟨rfl, rfl⟩
theorem andIndx (z : Byte) : Statement (.andIndx z) := by exact ⟨rfl, rfl⟩
theorem andIndy (z : Byte) : Statement (.andIndy z) := by exact ⟨rfl, rfl⟩
theorem oraImm (v : Byte) : Statement (.oraImm v) := by exact ⟨rfl, rfl⟩
theorem oraZp (z : Byte) : Statement (.oraZp z) := by exact ⟨rfl, rfl⟩
theorem oraZpx (z : Byte) : Statement (.oraZpx z) := by exact ⟨rfl, rfl⟩
theorem oraAbs (w : Addr) : Statement (.oraAbs w) := by exact ⟨rfl, rfl⟩
theorem oraAbsx (w : Addr) : Statement (.oraAbsx w) := by exact ⟨rfl, rfl⟩
theorem oraAbsy (w : Addr) : Statement (.oraAbsy w) := by exact ⟨rfl, rfl⟩
theorem oraIndx (z : Byte) : Statement (.oraIndx z) := by exact ⟨rfl, rfl⟩
theorem oraIndy (z : Byte) : Statement (.oraIndy z) := by exact ⟨rfl, rfl⟩
theorem eorImm (v : Byte) : Statement (.eorImm v) := by exact ⟨rfl, rfl⟩
theorem eorZp (z : Byte) : Statement (.eorZp z) := by exact ⟨rfl, rfl⟩
theorem eorZpx (z : Byte) : Statement (.eorZpx z) := by exact ⟨rfl, rfl⟩
theorem eorAbs (w : Addr) : Statement (.eorAbs w) := by exact ⟨rfl, rfl⟩
theorem eorAbsx (w : Addr) : Statement (.eorAbsx w) := by exact ⟨rfl, rfl⟩
theorem eorAbsy (w : Addr) : Statement (.eorAbsy w) := by exact ⟨rfl, rfl⟩
theorem eorIndx (z : Byte) : Statement (.eorIndx z) := by exact ⟨rfl, rfl⟩
theorem eorIndy (z : Byte) : Statement (.eorIndy z) := by exact ⟨rfl, rfl⟩
theorem bitZp (z : Byte) : Statement (.bitZp z) := by exact ⟨rfl, rfl⟩
theorem bitAbs (w : Addr) : Statement (.bitAbs w) := by exact ⟨rfl, rfl⟩
theorem bccRel (r : Byte) : Statement (.bccRel r) := by exact ⟨rfl, rfl⟩
theorem bcsRel (r : Byte) : Statement (.bcsRel r) := by exact ⟨rfl, rfl⟩
theorem beqRel (r : Byte) : Statement (.beqRel r) := by exact ⟨rfl, rfl⟩
theorem bneRel (r : Byte) : Statement (.bneRel r) := by exact ⟨rfl, rfl⟩
theorem bmiRel (r : Byte) : Statement (.bmiRel r) := by exact ⟨rfl, rfl⟩
theorem bplRel (r : Byte) : Statement (.bplRel r) := by exact ⟨rfl, rfl⟩
theorem bvcRel (r : Byte) : Statement (.bvcRel r) := by exact ⟨rfl, rfl⟩
theorem bvsRel (r : Byte) : Statement (.bvsRel r) := by exact ⟨rfl, rfl⟩
theorem jmpAbs (w : Addr) : Statement (.jmpAbs w) := by exact ⟨rfl, rfl⟩
theorem jmpInd (w : Addr) : Statement (.jmpInd w) := by exact ⟨rfl, rfl⟩
theorem pha : Statement (.pha) := by exact ⟨rfl, rfl⟩
theorem php : Statement (.php) := by exact ⟨rfl, rfl⟩
theorem pla : Statement (.pla) := by exact ⟨rfl, rfl⟩
theorem plp : Statement (.plp) := by exact ⟨rfl, rfl⟩
theorem jsrAbs (w : Addr) : Statement (.jsrAbs w) := by exact ⟨rfl, rfl⟩
theorem rts : Statement (.rts) := by exact ⟨rfl, rfl⟩
theorem brk : Statement (.brk) := by exact ⟨rfl, rfl⟩
theorem rti : Statement (.rti) := by exact ⟨rfl, rfl⟩
theorem ldaImm (v : Byte) : Statement (.ldaImm v) := by exact ⟨rfl, rfl⟩
theorem ldaZp (z : Byte) : Statement (.ldaZp z) := by exact ⟨rfl, rfl⟩
theorem ldaZpx (z : Byte) : Statement (.ldaZpx z) := by exact ⟨rfl, rfl⟩
theorem ldaAbs (w : Addr) : Statement (.ldaAbs w) := by exact ⟨rfl, rfl⟩
theorem ldaAbsx (w : Addr) : Statement (.ldaAbsx w) := by exact ⟨rfl, rfl⟩
theorem ldaAbsy (w : Addr) : Statement (.ldaAbsy w) := by exact ⟨rfl, rfl⟩
theorem ldaIndx (z : Byte) : Statement (.ldaIndx z) := by exact ⟨rfl, rfl⟩
theorem ldaIndy (z : Byte) : Statement (.ldaIndy z) := by exact ⟨rfl, rfl⟩
theorem ldxImm (v : Byte) : Statement (.ldxImm v) := by exact ⟨rfl, rfl⟩
theorem ldxZp (z : Byte) : Statement (.ldxZp z) := by exact ⟨rfl, rfl⟩
theorem ldxZpy (z : Byte) : Statement (.ldxZpy z) := by exact ⟨rfl, rfl⟩
theorem ldxAbs (w : Addr) : Statement (.ldxAbs w) := by exact ⟨rfl, rfl⟩
theorem ldxAbsy (w : Addr) : Statement (.ldxAbsy w) := by exact ⟨rfl, rfl⟩
theorem ldyImm (v : Byte) : Statement (.ldyImm v) := by exact ⟨rfl, rfl⟩
theorem ldyZp (z : Byte) : Statement (.ldyZp z) := by exact ⟨rfl, rfl⟩
theorem ldyZpx (z : Byte) : Statement (.ldyZpx z) := by exact ⟨rfl, rfl⟩
theorem ldyAbs (w : Addr) : Statement (.ldyAbs w) := by exact ⟨rfl, rfl⟩
theorem ldyAbsx (w : Addr) : Statement (.ldyAbsx w) := by exact ⟨rfl, rfl⟩
theorem staZp (z : Byte) : Statement (.staZp z) := by exact ⟨rfl, rfl⟩
theorem staZpx (z : Byte) : Statement (.staZpx z) := by exact ⟨rfl, rfl⟩
theorem staAbs (w : Addr) : Statement (.staAbs w) := by exact ⟨rfl, rfl⟩
theorem staAbsx (w : Addr) : Statement (.staAbsx w) := by exact ⟨rfl, rfl⟩
theorem staAbsy (w : Addr) : Statement (.staAbsy w) := by exact ⟨rfl, rfl⟩
theorem staIndx (z : Byte) : Statement (.staIndx z) := by exact ⟨rfl, rfl⟩
theorem staIndy (z : Byte) : Statement (.staIndy z) := by exact ⟨rfl, rfl⟩
theorem stxZp (z : Byte) : Statement (.stxZp z) := by exact ⟨rfl, rfl⟩
theorem stxZpy (z : Byte) : Statement (.stxZpy z) := by exact ⟨rfl, rfl⟩
theorem stxAbs (w : Addr) : Statement (.stxAbs w) := by exact ⟨rfl, rfl⟩
theorem styZp (z : Byte) : Statement (.styZp z) := by exact ⟨rfl, rfl⟩
theorem styZpx (z : Byte) : Statement (.styZpx z) := by exact ⟨rfl, rfl⟩
theorem styAbs (w : Addr) : Statement (.styAbs w) := by exact ⟨rfl, rfl⟩
theorem tax : Statement (.tax) := by exact ⟨rfl, rfl⟩
theorem tay : Statement (.tay) := by exact ⟨rfl, rfl⟩
theorem txa : Statement (.txa) := by exact ⟨rfl, rfl⟩
theorem tya : Statement (.tya) := by exact ⟨rfl, rfl⟩
theorem tsx : Statement (.tsx) := by exact ⟨rfl, rfl⟩
theorem txs : Statement (.txs) := by exact ⟨rfl, rfl⟩
theorem clc : Statement (.clc) := by exact ⟨rfl, rfl⟩
theorem sec : Statement (.sec) := by exact ⟨rfl, rfl⟩
theorem cli : Statement (.cli) := by exact ⟨rfl, rfl⟩
theorem sei : Statement (.sei) := by exact ⟨rfl, rfl⟩
theorem cld : Statement (.cld) := by exact ⟨rfl, rfl⟩
theorem sed : Statement (.sed) := by exact ⟨rfl, rfl⟩
theorem clv : Statement (.clv) := by exact ⟨rfl, rfl⟩
theorem nop : Statement (.nop) := by exact ⟨rfl, rfl⟩

end Sys2Proof.Laws.OpcodeRow
end

