-- ==== Sys2Proof/Tests/Slice0.lean ====
section
/-! SUPPORT. The model's own tests. Expected results come from outside the model: the encodings of the family files, the
counts and the vectors of 95_test_vectors.md (a vector's test carries its id). Then one witness for each obligation that has
hypotheses. -/

open Sys2Proof Sys2Proof.Machine

namespace Sys2Proof.Tests

/-! ### Well-formedness: an ill-formed term for each check -/

theorem test_wellFormed_accepts_ldx_zpy :
    Descriptor.wellFormed { opcode := 0xB6#8, operation := .LDX, mode := .ZPY, length := 2, cycles := 4 } = true := by
  decide

/-- 30_encoding.md R111: an absolute instruction has three bytes. -/
theorem test_wellFormed_refuses_wrong_length :
    Descriptor.wellFormed { opcode := 0xAD#8, operation := .LDA, mode := .ABS, length := 2, cycles := 4 } = false := by
  decide

/-- 41_addressing_modes.md R177: STA has no immediate form. -/
theorem test_wellFormed_refuses_wrong_mode :
    Descriptor.wellFormed { opcode := 0x89#8, operation := .STA, mode := .IMM, length := 2, cycles := 2 } = false := by
  decide

/-! ### Decoding: every constructor, from a word written out from its family file's encoding -/

theorem test_decode_arithmetic_1 :
    ([
        ([0b01101001#8, 0x9C#8], .adcImm 0x9C#8),
        ([0b01100101#8, 0x9C#8], .adcZp 0x9C#8),
        ([0b01110101#8, 0x9C#8], .adcZpx 0x9C#8),
        ([0b01101101#8, 0x9C#8, 0xE1#8], .adcAbs 0xE19C#16),
        ([0b01111101#8, 0x9C#8, 0xE1#8], .adcAbsx 0xE19C#16),
        ([0b01111001#8, 0x9C#8, 0xE1#8], .adcAbsy 0xE19C#16),
        ([0b01100001#8, 0x9C#8], .adcIndx 0x9C#8),
        ([0b01110001#8, 0x9C#8], .adcIndy 0x9C#8),
        ([0b11101001#8, 0x9C#8], .sbcImm 0x9C#8),
        ([0b11100101#8, 0x9C#8], .sbcZp 0x9C#8),
        ([0b11110101#8, 0x9C#8], .sbcZpx 0x9C#8),
        ([0b11101101#8, 0x9C#8, 0xE1#8], .sbcAbs 0xE19C#16),
        ([0b11111101#8, 0x9C#8, 0xE1#8], .sbcAbsx 0xE19C#16),
        ([0b11111001#8, 0x9C#8, 0xE1#8], .sbcAbsy 0xE19C#16),
        ([0b11100001#8, 0x9C#8], .sbcIndx 0x9C#8),
        ([0b11110001#8, 0x9C#8], .sbcIndy 0x9C#8)] : List (List Byte × Instr)).all
      (fun c => decode (c.1 ++ [0x02#8]) == .instr c.2 [0x02#8]) = true := by
  decide

theorem test_decode_arithmetic_2 :
    ([
        ([0b11001001#8, 0x9C#8], .cmpImm 0x9C#8),
        ([0b11000101#8, 0x9C#8], .cmpZp 0x9C#8),
        ([0b11010101#8, 0x9C#8], .cmpZpx 0x9C#8),
        ([0b11001101#8, 0x9C#8, 0xE1#8], .cmpAbs 0xE19C#16),
        ([0b11011101#8, 0x9C#8, 0xE1#8], .cmpAbsx 0xE19C#16),
        ([0b11011001#8, 0x9C#8, 0xE1#8], .cmpAbsy 0xE19C#16),
        ([0b11000001#8, 0x9C#8], .cmpIndx 0x9C#8),
        ([0b11010001#8, 0x9C#8], .cmpIndy 0x9C#8),
        ([0b11100000#8, 0x9C#8], .cpxImm 0x9C#8),
        ([0b11100100#8, 0x9C#8], .cpxZp 0x9C#8),
        ([0b11101100#8, 0x9C#8, 0xE1#8], .cpxAbs 0xE19C#16),
        ([0b11000000#8, 0x9C#8], .cpyImm 0x9C#8),
        ([0b11000100#8, 0x9C#8], .cpyZp 0x9C#8),
        ([0b11001100#8, 0x9C#8, 0xE1#8], .cpyAbs 0xE19C#16),
        ([0b11100110#8, 0x9C#8], .incZp 0x9C#8),
        ([0b11110110#8, 0x9C#8], .incZpx 0x9C#8)] : List (List Byte × Instr)).all
      (fun c => decode (c.1 ++ [0x02#8]) == .instr c.2 [0x02#8]) = true := by
  decide

theorem test_decode_arithmetic_3 :
    ([
        ([0b11101110#8, 0x9C#8, 0xE1#8], .incAbs 0xE19C#16),
        ([0b11111110#8, 0x9C#8, 0xE1#8], .incAbsx 0xE19C#16),
        ([0b11000110#8, 0x9C#8], .decZp 0x9C#8),
        ([0b11010110#8, 0x9C#8], .decZpx 0x9C#8),
        ([0b11001110#8, 0x9C#8, 0xE1#8], .decAbs 0xE19C#16),
        ([0b11011110#8, 0x9C#8, 0xE1#8], .decAbsx 0xE19C#16),
        ([0b11101000#8], .inx),
        ([0b11001000#8], .iny),
        ([0b11001010#8], .dex),
        ([0b10001000#8], .dey)] : List (List Byte × Instr)).all
      (fun c => decode (c.1 ++ [0x02#8]) == .instr c.2 [0x02#8]) = true := by
  decide

theorem test_decode_shift_logic_1 :
    ([
        ([0b00001010#8], .aslAcc),
        ([0b00000110#8, 0x9C#8], .aslZp 0x9C#8),
        ([0b00010110#8, 0x9C#8], .aslZpx 0x9C#8),
        ([0b00001110#8, 0x9C#8, 0xE1#8], .aslAbs 0xE19C#16),
        ([0b00011110#8, 0x9C#8, 0xE1#8], .aslAbsx 0xE19C#16),
        ([0b01001010#8], .lsrAcc),
        ([0b01000110#8, 0x9C#8], .lsrZp 0x9C#8),
        ([0b01010110#8, 0x9C#8], .lsrZpx 0x9C#8),
        ([0b01001110#8, 0x9C#8, 0xE1#8], .lsrAbs 0xE19C#16),
        ([0b01011110#8, 0x9C#8, 0xE1#8], .lsrAbsx 0xE19C#16),
        ([0b00101010#8], .rolAcc),
        ([0b00100110#8, 0x9C#8], .rolZp 0x9C#8),
        ([0b00110110#8, 0x9C#8], .rolZpx 0x9C#8),
        ([0b00101110#8, 0x9C#8, 0xE1#8], .rolAbs 0xE19C#16),
        ([0b00111110#8, 0x9C#8, 0xE1#8], .rolAbsx 0xE19C#16),
        ([0b01101010#8], .rorAcc)] : List (List Byte × Instr)).all
      (fun c => decode (c.1 ++ [0x02#8]) == .instr c.2 [0x02#8]) = true := by
  decide

theorem test_decode_shift_logic_2 :
    ([
        ([0b01100110#8, 0x9C#8], .rorZp 0x9C#8),
        ([0b01110110#8, 0x9C#8], .rorZpx 0x9C#8),
        ([0b01101110#8, 0x9C#8, 0xE1#8], .rorAbs 0xE19C#16),
        ([0b01111110#8, 0x9C#8, 0xE1#8], .rorAbsx 0xE19C#16),
        ([0b00101001#8, 0x9C#8], .andImm 0x9C#8),
        ([0b00100101#8, 0x9C#8], .andZp 0x9C#8),
        ([0b00110101#8, 0x9C#8], .andZpx 0x9C#8),
        ([0b00101101#8, 0x9C#8, 0xE1#8], .andAbs 0xE19C#16),
        ([0b00111101#8, 0x9C#8, 0xE1#8], .andAbsx 0xE19C#16),
        ([0b00111001#8, 0x9C#8, 0xE1#8], .andAbsy 0xE19C#16),
        ([0b00100001#8, 0x9C#8], .andIndx 0x9C#8),
        ([0b00110001#8, 0x9C#8], .andIndy 0x9C#8),
        ([0b00001001#8, 0x9C#8], .oraImm 0x9C#8),
        ([0b00000101#8, 0x9C#8], .oraZp 0x9C#8),
        ([0b00010101#8, 0x9C#8], .oraZpx 0x9C#8),
        ([0b00001101#8, 0x9C#8, 0xE1#8], .oraAbs 0xE19C#16)] : List (List Byte × Instr)).all
      (fun c => decode (c.1 ++ [0x02#8]) == .instr c.2 [0x02#8]) = true := by
  decide

theorem test_decode_shift_logic_3 :
    ([
        ([0b00011101#8, 0x9C#8, 0xE1#8], .oraAbsx 0xE19C#16),
        ([0b00011001#8, 0x9C#8, 0xE1#8], .oraAbsy 0xE19C#16),
        ([0b00000001#8, 0x9C#8], .oraIndx 0x9C#8),
        ([0b00010001#8, 0x9C#8], .oraIndy 0x9C#8),
        ([0b01001001#8, 0x9C#8], .eorImm 0x9C#8),
        ([0b01000101#8, 0x9C#8], .eorZp 0x9C#8),
        ([0b01010101#8, 0x9C#8], .eorZpx 0x9C#8),
        ([0b01001101#8, 0x9C#8, 0xE1#8], .eorAbs 0xE19C#16),
        ([0b01011101#8, 0x9C#8, 0xE1#8], .eorAbsx 0xE19C#16),
        ([0b01011001#8, 0x9C#8, 0xE1#8], .eorAbsy 0xE19C#16),
        ([0b01000001#8, 0x9C#8], .eorIndx 0x9C#8),
        ([0b01010001#8, 0x9C#8], .eorIndy 0x9C#8),
        ([0b00100100#8, 0x9C#8], .bitZp 0x9C#8),
        ([0b00101100#8, 0x9C#8, 0xE1#8], .bitAbs 0xE19C#16)] : List (List Byte × Instr)).all
      (fun c => decode (c.1 ++ [0x02#8]) == .instr c.2 [0x02#8]) = true := by
  decide

theorem test_decode_branch_jump :
    ([
        ([0b10010000#8, 0x9C#8], .bccRel 0x9C#8),
        ([0b10110000#8, 0x9C#8], .bcsRel 0x9C#8),
        ([0b11110000#8, 0x9C#8], .beqRel 0x9C#8),
        ([0b11010000#8, 0x9C#8], .bneRel 0x9C#8),
        ([0b00110000#8, 0x9C#8], .bmiRel 0x9C#8),
        ([0b00010000#8, 0x9C#8], .bplRel 0x9C#8),
        ([0b01010000#8, 0x9C#8], .bvcRel 0x9C#8),
        ([0b01110000#8, 0x9C#8], .bvsRel 0x9C#8),
        ([0b01001100#8, 0x9C#8, 0xE1#8], .jmpAbs 0xE19C#16),
        ([0b01101100#8, 0x9C#8, 0xE1#8], .jmpInd 0xE19C#16)] : List (List Byte × Instr)).all
      (fun c => decode (c.1 ++ [0x02#8]) == .instr c.2 [0x02#8]) = true := by
  decide

theorem test_decode_stack :
    ([
        ([0b01001000#8], .pha),
        ([0b00001000#8], .php),
        ([0b01101000#8], .pla),
        ([0b00101000#8], .plp),
        ([0b00100000#8, 0x9C#8, 0xE1#8], .jsrAbs 0xE19C#16),
        ([0b01100000#8], .rts),
        ([0b00000000#8], .brk),
        ([0b01000000#8], .rti)] : List (List Byte × Instr)).all
      (fun c => decode (c.1 ++ [0x02#8]) == .instr c.2 [0x02#8]) = true := by
  decide

theorem test_decode_load_store_transfer_1 :
    ([
        ([0b10101001#8, 0x9C#8], .ldaImm 0x9C#8),
        ([0b10100101#8, 0x9C#8], .ldaZp 0x9C#8),
        ([0b10110101#8, 0x9C#8], .ldaZpx 0x9C#8),
        ([0b10101101#8, 0x9C#8, 0xE1#8], .ldaAbs 0xE19C#16),
        ([0b10111101#8, 0x9C#8, 0xE1#8], .ldaAbsx 0xE19C#16),
        ([0b10111001#8, 0x9C#8, 0xE1#8], .ldaAbsy 0xE19C#16),
        ([0b10100001#8, 0x9C#8], .ldaIndx 0x9C#8),
        ([0b10110001#8, 0x9C#8], .ldaIndy 0x9C#8),
        ([0b10100010#8, 0x9C#8], .ldxImm 0x9C#8),
        ([0b10100110#8, 0x9C#8], .ldxZp 0x9C#8),
        ([0b10110110#8, 0x9C#8], .ldxZpy 0x9C#8),
        ([0b10101110#8, 0x9C#8, 0xE1#8], .ldxAbs 0xE19C#16),
        ([0b10111110#8, 0x9C#8, 0xE1#8], .ldxAbsy 0xE19C#16),
        ([0b10100000#8, 0x9C#8], .ldyImm 0x9C#8),
        ([0b10100100#8, 0x9C#8], .ldyZp 0x9C#8),
        ([0b10110100#8, 0x9C#8], .ldyZpx 0x9C#8)] : List (List Byte × Instr)).all
      (fun c => decode (c.1 ++ [0x02#8]) == .instr c.2 [0x02#8]) = true := by
  decide

theorem test_decode_load_store_transfer_2 :
    ([
        ([0b10101100#8, 0x9C#8, 0xE1#8], .ldyAbs 0xE19C#16),
        ([0b10111100#8, 0x9C#8, 0xE1#8], .ldyAbsx 0xE19C#16),
        ([0b10000101#8, 0x9C#8], .staZp 0x9C#8),
        ([0b10010101#8, 0x9C#8], .staZpx 0x9C#8),
        ([0b10001101#8, 0x9C#8, 0xE1#8], .staAbs 0xE19C#16),
        ([0b10011101#8, 0x9C#8, 0xE1#8], .staAbsx 0xE19C#16),
        ([0b10011001#8, 0x9C#8, 0xE1#8], .staAbsy 0xE19C#16),
        ([0b10000001#8, 0x9C#8], .staIndx 0x9C#8),
        ([0b10010001#8, 0x9C#8], .staIndy 0x9C#8),
        ([0b10000110#8, 0x9C#8], .stxZp 0x9C#8),
        ([0b10010110#8, 0x9C#8], .stxZpy 0x9C#8),
        ([0b10001110#8, 0x9C#8, 0xE1#8], .stxAbs 0xE19C#16),
        ([0b10000100#8, 0x9C#8], .styZp 0x9C#8),
        ([0b10010100#8, 0x9C#8], .styZpx 0x9C#8),
        ([0b10001100#8, 0x9C#8, 0xE1#8], .styAbs 0xE19C#16),
        ([0b10101010#8], .tax)] : List (List Byte × Instr)).all
      (fun c => decode (c.1 ++ [0x02#8]) == .instr c.2 [0x02#8]) = true := by
  decide

theorem test_decode_load_store_transfer_3 :
    ([
        ([0b10101000#8], .tay),
        ([0b10001010#8], .txa),
        ([0b10011000#8], .tya),
        ([0b10111010#8], .tsx),
        ([0b10011010#8], .txs)] : List (List Byte × Instr)).all
      (fun c => decode (c.1 ++ [0x02#8]) == .instr c.2 [0x02#8]) = true := by
  decide

theorem test_decode_flags :
    ([
        ([0b00011000#8], .clc),
        ([0b00111000#8], .sec),
        ([0b01011000#8], .cli),
        ([0b01111000#8], .sei),
        ([0b11011000#8], .cld),
        ([0b11111000#8], .sed),
        ([0b10111000#8], .clv),
        ([0b11101010#8], .nop)] : List (List Byte × Instr)).all
      (fun c => decode (c.1 ++ [0x02#8]) == .instr c.2 [0x02#8]) = true := by
  decide


/-- 30_encoding.md R117: the 105 bytes with no assignment are rejected by name, whatever follows. -/
theorem test_decode_illegal_bytes :
    ([
        0x02#8, 0x03#8, 0x04#8, 0x07#8, 0x0B#8, 0x0C#8, 0x0F#8, 0x12#8, 0x13#8, 0x14#8, 0x17#8, 0x1A#8, 0x1B#8, 0x1C#8, 0x1F#8,
        0x22#8, 0x23#8, 0x27#8, 0x2B#8, 0x2F#8, 0x32#8, 0x33#8, 0x34#8, 0x37#8, 0x3A#8, 0x3B#8, 0x3C#8, 0x3F#8, 0x42#8, 0x43#8,
        0x44#8, 0x47#8, 0x4B#8, 0x4F#8, 0x52#8, 0x53#8, 0x54#8, 0x57#8, 0x5A#8, 0x5B#8, 0x5C#8, 0x5F#8, 0x62#8, 0x63#8, 0x64#8,
        0x67#8, 0x6B#8, 0x6F#8, 0x72#8, 0x73#8, 0x74#8, 0x77#8, 0x7A#8, 0x7B#8, 0x7C#8, 0x7F#8, 0x80#8, 0x82#8, 0x83#8, 0x87#8,
        0x89#8, 0x8B#8, 0x8F#8, 0x92#8, 0x93#8, 0x97#8, 0x9B#8, 0x9C#8, 0x9E#8, 0x9F#8, 0xA3#8, 0xA7#8, 0xAB#8, 0xAF#8, 0xB2#8,
        0xB3#8, 0xB7#8, 0xBB#8, 0xBF#8, 0xC2#8, 0xC3#8, 0xC7#8, 0xCB#8, 0xCF#8, 0xD2#8, 0xD3#8, 0xD4#8, 0xD7#8, 0xDA#8, 0xDB#8,
        0xDC#8, 0xDF#8, 0xE2#8, 0xE3#8, 0xE7#8, 0xEB#8, 0xEF#8, 0xF2#8, 0xF3#8, 0xF4#8, 0xF7#8, 0xFA#8, 0xFB#8, 0xFC#8, 0xFF#8] : List Byte).all
      (fun b => decode [b, 0xA9#8, 0x00#8] == .illegalOpcode b) = true := by
  decide

set_option maxRecDepth 8000 in
/-- The counts of 95_test_vectors.md, "Decode-table check": 151 legal bytes, by mode. -/
theorem test_decode_mode_counts :
    ([(.IMP, 25), (.ACC, 4), (.IMM, 11), (.ZP, 21), (.ZPX, 16), (.ZPY, 2), (.ABS, 23), (.ABSX, 15), (.ABSY, 9), (.INDX, 8),
        (.INDY, 8), (.IND, 1), (.REL, 8)] : List (Mode × Nat)).all (fun c =>
      (List.range 256).countP (fun b => (describeOpcode (BitVec.ofNat 8 b)).any (fun d => d.mode == c.1)) == c.2) = true := by
  decide

set_option maxRecDepth 8000 in
/-- Every descriptor of the table is well-formed. -/
theorem test_descriptors_wellFormed :
    (List.range 256).all (fun b => (describeOpcode (BitVec.ofNat 8 b)).all Descriptor.wellFormed) = true := by
  decide

/-- Base cycles of four rows of 30_encoding.md R115. -/
theorem test_descriptor_rows :
    describeOpcode 0x00#8 = some { opcode := 0x00#8, operation := .BRK, mode := .IMP, length := 1, cycles := 7 } ∧
      describeOpcode 0x11#8 = some { opcode := 0x11#8, operation := .ORA, mode := .INDY, length := 2, cycles := 5 } ∧
      describeOpcode 0x1E#8 = some { opcode := 0x1E#8, operation := .ASL, mode := .ABSX, length := 3, cycles := 7 } ∧
      describeOpcode 0x30#8 = some { opcode := 0x30#8, operation := .BMI, mode := .REL, length := 2, cycles := 2 } := by
  decide

/-- The extras of the same rows. -/
theorem test_extra_kinds :
    [0x00#8, 0x11#8, 0x1E#8, 0x30#8].map extraKind = [.none, .pageCross, .none, .branch] := by decide

/-- opcode_table.json numbers the first byte's bits lowest: LDA absolute,X of 0x1234. -/
theorem test_decodeTableWord_byte_order : decodeTableWord 24 0x1234BD = some (.ldaAbsx 0x1234#16) := by decide

/-- Bits above `nbits` are 0. -/
theorem test_decodeTableWord_short : decodeTableWord 8 0x1234BD = some (.ldaAbsx 0x0000#16) := by decide

theorem test_encode_low_byte_first : encode (.jmpInd 0x02FF#16) = [0x6C#8, 0xFF#8, 0x02#8] := by decide

/-! ### One step each, from the vectors of 95_test_vectors.md -/

/-- The instruction's bytes at `pc` over the listed memory, in the launch state the vector starts from. -/
def loaded (pc : Addr) (bytes : List Byte) (cells : List (Addr × Byte)) (l : Launch) : State :=
  (launch { l with pc := pc, image := imageOf cells }).storeBytes pc bytes

/-- What one step leaves: A, X, Y, SP, the packed status, PC, and the bytes at some addresses. -/
def seen (cells : List Addr) (s : State) : Option (List Byte × Addr × List Byte) :=
  match step s with
  | .next t => some ([t.a, t.x, t.y, t.sp, readP t.p], t.pc, cells.map t.read)
  | .fault _ | .refused _ => none

/-- V-ADC-4: carry-in makes overflow. -/
theorem test_adc_4 : seen [] (loaded 0x0400#16 [0x69#8, 0x00#8] []
    { image := [], a := 0x7F#8, p := writeP 0x21#8 }) =
    some ([0x80#8, 0x00#8, 0x00#8, 0x00#8, 0xE0#8], 0x0402#16, []) := by
  decide

/-- V-ADC-10: V previously 1 is cleared (90_conflicts.md C4). -/
theorem test_adc_10 : seen [] (loaded 0x0400#16 [0x69#8, 0x00#8] []
    { image := [], a := 0x12#8, p := writeP 0x60#8 }) =
    some ([0x12#8, 0x00#8, 0x00#8, 0x00#8, 0x20#8], 0x0402#16, []) := by
  decide

/-- V-ADC-12: ABS operand. -/
theorem test_adc_12 : seen [] (loaded 0x0400#16 [0x6D#8, 0x34#8, 0x12#8] [(0x1234#16, 0x05#8)]
    { image := [], a := 0x10#8 }) =
    some ([0x15#8, 0x00#8, 0x00#8, 0x00#8, 0x20#8], 0x0403#16, []) := by
  decide

/-- V-SBC-3: C=0 subtracts one more. -/
theorem test_sbc_3 : seen [] (loaded 0x0400#16 [0xE9#8, 0x05#8] []
    { image := [], a := 0x05#8, p := writeP 0x20#8 }) =
    some ([0xFF#8, 0x00#8, 0x00#8, 0x00#8, 0xA0#8], 0x0402#16, []) := by
  decide

/-- V-SBC-5: overflow to negative. -/
theorem test_sbc_5 : seen [] (loaded 0x0400#16 [0xE9#8, 0xFF#8] []
    { image := [], a := 0x7F#8, p := writeP 0x21#8 }) =
    some ([0x80#8, 0x00#8, 0x00#8, 0x00#8, 0xE0#8], 0x0402#16, []) := by
  decide

/-- V-CMP-3: N from difference, not signed order; V=1 kept. -/
theorem test_cmp_3 : seen [] (loaded 0x0400#16 [0xC9#8, 0x80#8] []
    { image := [], a := 0x00#8, p := writeP 0x60#8 }) =
    some ([0x00#8, 0x00#8, 0x00#8, 0x00#8, 0xE0#8], 0x0402#16, []) := by
  decide

/-- V-CMP-6: 1 < 255 unsigned; V=1 kept. -/
theorem test_cmp_6 : seen [] (loaded 0x0400#16 [0xC9#8, 0xFF#8] []
    { image := [], a := 0x01#8, p := writeP 0x60#8 }) =
    some ([0x01#8, 0x00#8, 0x00#8, 0x00#8, 0x60#8], 0x0402#16, []) := by
  decide

/-- V-CPX-1: equal. -/
theorem test_cpx_1 : seen [] (loaded 0x0400#16 [0xE0#8, 0x05#8] []
    { image := [], x := 0x05#8 }) =
    some ([0x00#8, 0x05#8, 0x00#8, 0x00#8, 0x23#8], 0x0402#16, []) := by
  decide

/-- V-CPX-2: ZP, less. -/
theorem test_cpx_2 : seen [] (loaded 0x0400#16 [0xE4#8, 0x10#8] [(0x0010#16, 0x05#8)]
    { image := [], x := 0x04#8 }) =
    some ([0x00#8, 0x04#8, 0x00#8, 0x00#8, 0xA0#8], 0x0402#16, []) := by
  decide

/-- V-CPY-1: 0 vs 0. -/
theorem test_cpy_1 : seen [] (loaded 0x0400#16 [0xC0#8, 0x00#8] []
    { image := [], y := 0x00#8 }) =
    some ([0x00#8, 0x00#8, 0x00#8, 0x00#8, 0x23#8], 0x0402#16, []) := by
  decide

/-- V-CPY-2: ABS, greater, N=1. -/
theorem test_cpy_2 : seen [] (loaded 0x0400#16 [0xCC#8, 0x00#8, 0x03#8] [(0x0300#16, 0x10#8)]
    { image := [], y := 0x90#8 }) =
    some ([0x00#8, 0x00#8, 0x90#8, 0x00#8, 0xA1#8], 0x0403#16, []) := by
  decide

/-- V-INC-2: to 0x80, C=1 kept. -/
theorem test_inc_2 : seen [0x0300#16] (loaded 0x0400#16 [0xEE#8, 0x00#8, 0x03#8] [(0x0300#16, 0x7F#8)]
    { image := [], p := writeP 0x21#8 }) =
    some ([0x00#8, 0x00#8, 0x00#8, 0x00#8, 0xA1#8], 0x0403#16, [0x80#8]) := by
  decide

/-- V-INC-3: ABSX wraps to 0x0000. -/
theorem test_inc_3 : seen [0x0000#16] (loaded 0x0400#16 [0xFE#8, 0xFF#8, 0xFF#8] [(0x0000#16, 0x41#8)]
    { image := [], x := 0x01#8 }) =
    some ([0x00#8, 0x01#8, 0x00#8, 0x00#8, 0x20#8], 0x0403#16, [0x42#8]) := by
  decide

/-- V-DEC-1: wrap to 0xFF. -/
theorem test_dec_1 : seen [0x0010#16] (loaded 0x0400#16 [0xC6#8, 0x10#8] [(0x0010#16, 0x00#8)]
    { image := [] }) =
    some ([0x00#8, 0x00#8, 0x00#8, 0x00#8, 0xA0#8], 0x0402#16, [0xFF#8]) := by
  decide

/-- V-DEC-2: ZPX wraps in page 0, to 0. -/
theorem test_dec_2 : seen [0x0001#16] (loaded 0x0400#16 [0xD6#8, 0xFF#8] [(0x0001#16, 0x01#8)]
    { image := [], x := 0x02#8 }) =
    some ([0x00#8, 0x02#8, 0x00#8, 0x00#8, 0x22#8], 0x0402#16, [0x00#8]) := by
  decide

/-- V-INX-1: wrap. -/
theorem test_inx_1 : seen [] (loaded 0x0400#16 [0xE8#8] []
    { image := [], x := 0xFF#8 }) =
    some ([0x00#8, 0x00#8, 0x00#8, 0x00#8, 0x22#8], 0x0401#16, []) := by
  decide

/-- V-INY-1: to negative. -/
theorem test_iny_1 : seen [] (loaded 0x0400#16 [0xC8#8] []
    { image := [], y := 0x7F#8 }) =
    some ([0x00#8, 0x00#8, 0x80#8, 0x00#8, 0xA0#8], 0x0401#16, []) := by
  decide

/-- V-DEX-1: wrap. -/
theorem test_dex_1 : seen [] (loaded 0x0400#16 [0xCA#8] []
    { image := [], x := 0x00#8 }) =
    some ([0x00#8, 0xFF#8, 0x00#8, 0x00#8, 0xA0#8], 0x0401#16, []) := by
  decide

/-- V-DEY-1: to zero. -/
theorem test_dey_1 : seen [] (loaded 0x0400#16 [0x88#8] []
    { image := [], y := 0x01#8 }) =
    some ([0x00#8, 0x00#8, 0x00#8, 0x00#8, 0x22#8], 0x0401#16, []) := by
  decide

/-- V-ASL-2: C-in ignored. -/
theorem test_asl_2 : seen [] (loaded 0x0400#16 [0x0A#8] []
    { image := [], a := 0x41#8, p := writeP 0x21#8 }) =
    some ([0x82#8, 0x00#8, 0x00#8, 0x00#8, 0xA0#8], 0x0401#16, []) := by
  decide

/-- V-ASL-3: memory form. -/
theorem test_asl_3 : seen [0x0010#16] (loaded 0x0400#16 [0x06#8, 0x10#8] [(0x0010#16, 0xC0#8)]
    { image := [] }) =
    some ([0x00#8, 0x00#8, 0x00#8, 0x00#8, 0xA1#8], 0x0402#16, [0x80#8]) := by
  decide

/-- V-LSR-1: bit 0 to C, zero. -/
theorem test_lsr_1 : seen [] (loaded 0x0400#16 [0x4A#8] []
    { image := [], a := 0x01#8 }) =
    some ([0x00#8, 0x00#8, 0x00#8, 0x00#8, 0x23#8], 0x0401#16, []) := by
  decide

/-- V-LSR-2: N always cleared. -/
theorem test_lsr_2 : seen [0x0300#16] (loaded 0x0400#16 [0x4E#8, 0x00#8, 0x03#8] [(0x0300#16, 0xFF#8)]
    { image := [], p := writeP 0xA0#8 }) =
    some ([0x00#8, 0x00#8, 0x00#8, 0x00#8, 0x21#8], 0x0403#16, [0x7F#8]) := by
  decide

/-- V-ROL-1: C in to bit 0. -/
theorem test_rol_1 : seen [] (loaded 0x0400#16 [0x2A#8] []
    { image := [], a := 0x80#8, p := writeP 0x21#8 }) =
    some ([0x01#8, 0x00#8, 0x00#8, 0x00#8, 0x21#8], 0x0401#16, []) := by
  decide

/-- V-ROL-3: ABSX memory form. -/
theorem test_rol_3 : seen [0x0301#16] (loaded 0x0400#16 [0x3E#8, 0x00#8, 0x03#8] [(0x0301#16, 0x00#8)]
    { image := [], x := 0x01#8, p := writeP 0x21#8 }) =
    some ([0x00#8, 0x01#8, 0x00#8, 0x00#8, 0x20#8], 0x0403#16, [0x01#8]) := by
  decide

/-- V-ROR-1: C in to bit 7. -/
theorem test_ror_1 : seen [] (loaded 0x0400#16 [0x6A#8] []
    { image := [], a := 0x01#8, p := writeP 0x21#8 }) =
    some ([0x80#8, 0x00#8, 0x00#8, 0x00#8, 0xA1#8], 0x0401#16, []) := by
  decide

/-- V-ROR-3: ZPX wraps: 0x10+0xF5 -> 0x05. -/
theorem test_ror_3 : seen [0x0005#16] (loaded 0x0400#16 [0x76#8, 0x10#8] [(0x0005#16, 0x02#8)]
    { image := [], x := 0xF5#8, p := writeP 0x21#8 }) =
    some ([0x00#8, 0xF5#8, 0x00#8, 0x00#8, 0xA0#8], 0x0402#16, [0x81#8]) := by
  decide

/-- V-AND-2: negative. -/
theorem test_and_2 : seen [] (loaded 0x0400#16 [0x29#8, 0x80#8] []
    { image := [], a := 0xFF#8 }) =
    some ([0x80#8, 0x00#8, 0x00#8, 0x00#8, 0xA0#8], 0x0402#16, []) := by
  decide

/-- V-ORA-2: ZP, negative. -/
theorem test_ora_2 : seen [] (loaded 0x0400#16 [0x05#8, 0x10#8] [(0x0010#16, 0x80#8)]
    { image := [], a := 0x01#8 }) =
    some ([0x81#8, 0x00#8, 0x00#8, 0x00#8, 0xA0#8], 0x0402#16, []) := by
  decide

/-- V-EOR-2: invert. -/
theorem test_eor_2 : seen [] (loaded 0x0400#16 [0x49#8, 0xFF#8] []
    { image := [], a := 0x5A#8 }) =
    some ([0xA5#8, 0x00#8, 0x00#8, 0x00#8, 0xA0#8], 0x0402#16, []) := by
  decide

/-- V-BIT-1: N,V from memory; Z from A&M. -/
theorem test_bit_1 : seen [] (loaded 0x0400#16 [0x24#8, 0x10#8] [(0x0010#16, 0xC0#8)]
    { image := [], a := 0x00#8 }) =
    some ([0x00#8, 0x00#8, 0x00#8, 0x00#8, 0xE2#8], 0x0402#16, []) := by
  decide

/-- V-BIT-2: clears N,V,Z. -/
theorem test_bit_2 : seen [] (loaded 0x0400#16 [0x2C#8, 0x00#8, 0x03#8] [(0x0300#16, 0x3F#8)]
    { image := [], a := 0x01#8, p := writeP 0xE2#8 }) =
    some ([0x01#8, 0x00#8, 0x00#8, 0x00#8, 0x20#8], 0x0403#16, []) := by
  decide

/-- V-BR-1: BCC taken (+0x10). -/
theorem test_br_1 : seen [] (loaded 0x0440#16 [0x90#8, 0x10#8] []
    { image := [], p := writeP 0x20#8 }) =
    some ([0x00#8, 0x00#8, 0x00#8, 0x00#8, 0x20#8], 0x0450#16, []) := by
  decide

/-- V-BR-15: +0x20 does not carry into page 05. -/
theorem test_br_15 : seen [] (loaded 0x04F0#16 [0x90#8, 0x20#8] []
    { image := [] }) =
    some ([0x00#8, 0x00#8, 0x00#8, 0x00#8, 0x20#8], 0x0410#16, []) := by
  decide

/-- V-BR-3: BCS taken (+0x10). -/
theorem test_br_3 : seen [] (loaded 0x0440#16 [0xB0#8, 0x10#8] []
    { image := [], p := writeP 0x21#8 }) =
    some ([0x00#8, 0x00#8, 0x00#8, 0x00#8, 0x21#8], 0x0450#16, []) := by
  decide

/-- V-BR-13: -128 wraps forward in the page. -/
theorem test_br_13 : seen [] (loaded 0x0500#16 [0xB0#8, 0x80#8] []
    { image := [], p := writeP 0x21#8 }) =
    some ([0x00#8, 0x00#8, 0x00#8, 0x00#8, 0x21#8], 0x0580#16, []) := by
  decide

/-- V-BR-4: BEQ taken (+0x10). -/
theorem test_br_4 : seen [] (loaded 0x0440#16 [0xF0#8, 0x10#8] []
    { image := [], p := writeP 0x22#8 }) =
    some ([0x00#8, 0x00#8, 0x00#8, 0x00#8, 0x22#8], 0x0450#16, []) := by
  decide

/-- V-BR-14: opcode at xxFE: stays in page 02. -/
theorem test_br_14 : seen [] (loaded 0x02FE#16 [0xF0#8, 0x05#8] []
    { image := [], p := writeP 0x22#8 }) =
    some ([0x00#8, 0x00#8, 0x00#8, 0x00#8, 0x22#8], 0x0203#16, []) := by
  decide

/-- V-BR-5: BNE not taken (+0x10). -/
theorem test_br_5 : seen [] (loaded 0x0440#16 [0xD0#8, 0x10#8] []
    { image := [], p := writeP 0x22#8 }) =
    some ([0x00#8, 0x00#8, 0x00#8, 0x00#8, 0x22#8], 0x0442#16, []) := by
  decide

/-- V-BR-11: backward -16. -/
theorem test_br_11 : seen [] (loaded 0x0440#16 [0xD0#8, 0xF0#8] []
    { image := [] }) =
    some ([0x00#8, 0x00#8, 0x00#8, 0x00#8, 0x20#8], 0x0430#16, []) := by
  decide

/-- V-BR-6: BMI taken (+0x10). -/
theorem test_br_6 : seen [] (loaded 0x0440#16 [0x30#8, 0x10#8] []
    { image := [], p := writeP 0xA0#8 }) =
    some ([0x00#8, 0x00#8, 0x00#8, 0x00#8, 0xA0#8], 0x0450#16, []) := by
  decide

/-- V-BR-7: BPL not taken (+0x10). -/
theorem test_br_7 : seen [] (loaded 0x0440#16 [0x10#8, 0x10#8] []
    { image := [], p := writeP 0xA0#8 }) =
    some ([0x00#8, 0x00#8, 0x00#8, 0x00#8, 0xA0#8], 0x0442#16, []) := by
  decide

/-- V-BR-12: source §8: low F8+F9 = F1, high unchanged. -/
theorem test_br_12 : seen [] (loaded 0x12F8#16 [0x10#8, 0xF9#8] []
    { image := [] }) =
    some ([0x00#8, 0x00#8, 0x00#8, 0x00#8, 0x20#8], 0x12F1#16, []) := by
  decide

/-- V-BR-8: BVC taken (+0x10). -/
theorem test_br_8 : seen [] (loaded 0x0440#16 [0x50#8, 0x10#8] []
    { image := [], p := writeP 0x20#8 }) =
    some ([0x00#8, 0x00#8, 0x00#8, 0x00#8, 0x20#8], 0x0450#16, []) := by
  decide

/-- V-BR-9: BVS taken (+0x10). -/
theorem test_br_9 : seen [] (loaded 0x0440#16 [0x70#8, 0x10#8] []
    { image := [], p := writeP 0x60#8 }) =
    some ([0x00#8, 0x00#8, 0x00#8, 0x00#8, 0x60#8], 0x0450#16, []) := by
  decide

/-- V-BR-10: BVS not taken (+0x10). -/
theorem test_br_10 : seen [] (loaded 0x0440#16 [0x70#8, 0x10#8] []
    { image := [], p := writeP 0x20#8 }) =
    some ([0x00#8, 0x00#8, 0x00#8, 0x00#8, 0x20#8], 0x0442#16, []) := by
  decide

/-- V-JMP-1: absolute. -/
theorem test_jmp_1 : seen [] (loaded 0x0400#16 [0x4C#8, 0x34#8, 0x12#8] []
    { image := [] }) =
    some ([0x00#8, 0x00#8, 0x00#8, 0x00#8, 0x20#8], 0x1234#16, []) := by
  decide

/-- V-JMP-3: source Scenario 4: high from 0x0200. -/
theorem test_jmp_3 : seen [] (loaded 0x0400#16 [0x6C#8, 0xFF#8, 0x02#8] [(0x02FF#16, 0xAA#8), (0x0200#16, 0xAA#8), (0x0300#16, 0xBB#8)]
    { image := [] }) =
    some ([0x00#8, 0x00#8, 0x00#8, 0x00#8, 0x20#8], 0xAAAA#16, []) := by
  decide

/-- V-JMP-4: pointer 0xFFFF: high from 0xFF00. -/
theorem test_jmp_4 : seen [] (loaded 0x0400#16 [0x6C#8, 0xFF#8, 0xFF#8] [(0xFFFF#16, 0x00#8), (0xFF00#16, 0x05#8)]
    { image := [] }) =
    some ([0x00#8, 0x00#8, 0x00#8, 0x00#8, 0x20#8], 0x0500#16, []) := by
  decide

/-- V-PHA-1: SP=00: writes 0x0100, wraps to FF. -/
theorem test_pha_1 : seen [0x0100#16] (loaded 0x0400#16 [0x48#8] []
    { image := [], a := 0x42#8 }) =
    some ([0x42#8, 0x00#8, 0x00#8, 0xFF#8, 0x20#8], 0x0401#16, [0x42#8]) := by
  decide

/-- V-PHP-2: N,C set. -/
theorem test_php_2 : seen [0x01FF#16] (loaded 0x0400#16 [0x08#8] []
    { image := [], sp := 0xFF#8, p := writeP 0xA1#8 }) =
    some ([0x00#8, 0x00#8, 0x00#8, 0xFE#8, 0xA1#8], 0x0401#16, [0xB1#8]) := by
  decide

/-- V-PLA-1: SP=FF: reads 0x0100, wraps to 00. -/
theorem test_pla_1 : seen [] (loaded 0x0400#16 [0x68#8] [(0x0100#16, 0x80#8)]
    { image := [], sp := 0xFF#8 }) =
    some ([0x80#8, 0x00#8, 0x00#8, 0x00#8, 0xA0#8], 0x0401#16, []) := by
  decide

/-- V-PLA-2: zero. -/
theorem test_pla_2 : seen [] (loaded 0x0400#16 [0x68#8] [(0x01FD#16, 0x00#8)]
    { image := [], sp := 0xFC#8 }) =
    some ([0x00#8, 0x00#8, 0x00#8, 0xFD#8, 0x22#8], 0x0401#16, []) := by
  decide

/-- V-PLP-1: bit 5 still reads 1. -/
theorem test_plp_1 : seen [] (loaded 0x0400#16 [0x28#8] [(0x01FF#16, 0x00#8)]
    { image := [], sp := 0xFE#8 }) =
    some ([0x00#8, 0x00#8, 0x00#8, 0xFF#8, 0x20#8], 0x0401#16, []) := by
  decide

/-- V-PLP-2: every flag set, B too. -/
theorem test_plp_2 : seen [] (loaded 0x0400#16 [0x28#8] [(0x01FF#16, 0xFF#8)]
    { image := [], sp := 0xFE#8 }) =
    some ([0x00#8, 0x00#8, 0x00#8, 0xFF#8, 0xFF#8], 0x0401#16, []) := by
  decide

/-- V-JSR-2: SP=00: high to 0x0100, low to 0x01FF. -/
theorem test_jsr_2 : seen [0x0100#16, 0x01FF#16] (loaded 0x0400#16 [0x20#8, 0x00#8, 0x06#8] []
    { image := [] }) =
    some ([0x00#8, 0x00#8, 0x00#8, 0xFE#8, 0x20#8], 0x0600#16, [0x04#8, 0x02#8]) := by
  decide

/-- V-JSR-3: JSR at 0xFFFE: high operand from 0x0000, pushes 0x0000. -/
theorem test_jsr_3 : seen [0x0100#16, 0x01FF#16] (loaded 0xFFFE#16 [0x20#8, 0x00#8] [(0x0000#16, 0x06#8)]
    { image := [] }) =
    some ([0x00#8, 0x00#8, 0x00#8, 0xFE#8, 0x20#8], 0x0600#16, [0x00#8, 0x00#8]) := by
  decide

/-- V-RTS-1: pull low, high, +1. -/
theorem test_rts_1 : seen [] (loaded 0x0400#16 [0x60#8] [(0x01FE#16, 0x07#8), (0x01FF#16, 0x02#8)]
    { image := [], sp := 0xFD#8 }) =
    some ([0x00#8, 0x00#8, 0x00#8, 0xFF#8, 0x20#8], 0x0208#16, []) := by
  decide

/-- V-RTS-2: 0xFFFF+1 wraps to 0x0000. -/
theorem test_rts_2 : seen [] (loaded 0x0400#16 [0x60#8] [(0x01FE#16, 0xFF#8), (0x01FF#16, 0xFF#8)]
    { image := [], sp := 0xFD#8 }) =
    some ([0x00#8, 0x00#8, 0x00#8, 0xFF#8, 0x20#8], 0x0000#16, []) := by
  decide

/-- V-BRK-1: continuation of source Scenario 1. -/
theorem test_brk_1 : seen [0x0100#16, 0x01FF#16, 0x01FE#16] (loaded 0x0002#16 [0x00#8] [(0xFFFE#16, 0x00#8), (0xFFFF#16, 0x03#8)]
    { image := [], a := 0x05#8 }) =
    some ([0x05#8, 0x00#8, 0x00#8, 0xFD#8, 0x34#8], 0x0300#16, [0x00#8, 0x04#8, 0x30#8]) := by
  decide

/-- V-BRK-2: D,I,C set before: D kept, pushed 0x3D. -/
theorem test_brk_2 : seen [0x01FF#16, 0x01FE#16, 0x01FD#16] (loaded 0x0400#16 [0x00#8] [(0xFFFE#16, 0x00#8), (0xFFFF#16, 0x03#8)]
    { image := [], sp := 0xFF#8, p := writeP 0x2D#8 }) =
    some ([0x00#8, 0x00#8, 0x00#8, 0xFC#8, 0x3D#8], 0x0300#16, [0x04#8, 0x02#8, 0x3D#8]) := by
  decide

/-- V-RTI-1: after V-BRK-1: resumes at 0x0004, no +1. -/
theorem test_rti_1 : seen [] (loaded 0x0400#16 [0x40#8] [(0x01FE#16, 0x30#8), (0x01FF#16, 0x04#8), (0x0100#16, 0x00#8)]
    { image := [], sp := 0xFD#8 }) =
    some ([0x00#8, 0x00#8, 0x00#8, 0x00#8, 0x30#8], 0x0004#16, []) := by
  decide

/-- V-RTI-2: restores N,V,Z,C, clears I. -/
theorem test_rti_2 : seen [] (loaded 0x0400#16 [0x40#8] [(0x01FD#16, 0xC3#8), (0x01FE#16, 0x34#8), (0x01FF#16, 0x12#8)]
    { image := [], sp := 0xFC#8, p := writeP 0x24#8 }) =
    some ([0x00#8, 0x00#8, 0x00#8, 0xFF#8, 0xE3#8], 0x1234#16, []) := by
  decide

/-- V-LD-2: zero. -/
theorem test_ld_2 : seen [] (loaded 0x0400#16 [0xA9#8, 0x00#8] []
    { image := [], a := 0x55#8 }) =
    some ([0x00#8, 0x00#8, 0x00#8, 0x00#8, 0x22#8], 0x0402#16, []) := by
  decide

/-- V-LD-10: fetch wraps: operand at 0x0000, PC -> 0x0001. -/
theorem test_ld_10 : seen [] (loaded 0xFFFF#16 [0xA9#8] [(0x0000#16, 0x42#8)]
    { image := [] }) =
    some ([0x42#8, 0x00#8, 0x00#8, 0x00#8, 0x20#8], 0x0001#16, []) := by
  decide

/-- V-LD-3: source §8: ZPX FF+2 -> 0x0001, not 0x0101. -/
theorem test_ld_3 : seen [] (loaded 0x0400#16 [0xB5#8, 0xFF#8] [(0x0001#16, 0x99#8), (0x0101#16, 0x11#8)]
    { image := [], x := 0x02#8 }) =
    some ([0x99#8, 0x02#8, 0x00#8, 0x00#8, 0xA0#8], 0x0402#16, []) := by
  decide

/-- V-LD-4: ABSX 0xFFFF+1 -> 0x0000. -/
theorem test_ld_4 : seen [] (loaded 0x0400#16 [0xBD#8, 0xFF#8, 0xFF#8] [(0x0000#16, 0x7E#8)]
    { image := [], x := 0x01#8 }) =
    some ([0x7E#8, 0x01#8, 0x00#8, 0x00#8, 0x20#8], 0x0403#16, []) := by
  decide

/-- V-LD-5: ABSY crosses page (informative +1 cycle). -/
theorem test_ld_5 : seen [] (loaded 0x0400#16 [0xB9#8, 0xF0#8, 0x12#8] [(0x1310#16, 0xAB#8)]
    { image := [], y := 0x20#8 }) =
    some ([0xAB#8, 0x00#8, 0x20#8, 0x00#8, 0xA0#8], 0x0403#16, []) := by
  decide

/-- V-LD-6: INDX pointer FF: pair (FF, 00). -/
theorem test_ld_6 : seen [] (loaded 0x0400#16 [0xA1#8, 0xFE#8] [(0x00FF#16, 0x34#8), (0x0000#16, 0x12#8), (0x1234#16, 0x66#8)]
    { image := [], x := 0x01#8 }) =
    some ([0x66#8, 0x01#8, 0x00#8, 0x00#8, 0x20#8], 0x0402#16, []) := by
  decide

/-- V-LD-7: INDY pointer FF wraps; +Y crosses page. -/
theorem test_ld_7 : seen [] (loaded 0x0400#16 [0xB1#8, 0xFF#8] [(0x00FF#16, 0xF8#8), (0x0000#16, 0x12#8), (0x1308#16, 0x44#8)]
    { image := [], y := 0x10#8 }) =
    some ([0x44#8, 0x00#8, 0x10#8, 0x00#8, 0x20#8], 0x0402#16, []) := by
  decide

/-- V-LD-8: LDX ZPY wrap. -/
theorem test_ld_8 : seen [] (loaded 0x0400#16 [0xB6#8, 0xFF#8] [(0x0002#16, 0x80#8)]
    { image := [], y := 0x03#8 }) =
    some ([0x00#8, 0x80#8, 0x03#8, 0x00#8, 0xA0#8], 0x0402#16, []) := by
  decide

/-- V-LD-9: LDY ABSX. -/
theorem test_ld_9 : seen [] (loaded 0x0400#16 [0xBC#8, 0x00#8, 0x03#8] [(0x0305#16, 0x01#8)]
    { image := [], x := 0x05#8 }) =
    some ([0x00#8, 0x05#8, 0x01#8, 0x00#8, 0x20#8], 0x0403#16, []) := by
  decide

/-- V-ST-1: INDY store; no flags. -/
theorem test_st_1 : seen [0x1239#16] (loaded 0x0400#16 [0x91#8, 0xFF#8] [(0x00FF#16, 0x34#8), (0x0000#16, 0x12#8)]
    { image := [], a := 0x77#8, y := 0x05#8 }) =
    some ([0x77#8, 0x00#8, 0x05#8, 0x00#8, 0x20#8], 0x0402#16, [0x77#8]) := by
  decide

/-- V-ST-2: STX ZPY wraps to 0x0000. -/
theorem test_st_2 : seen [0x0000#16] (loaded 0x0400#16 [0x96#8, 0xFF#8] []
    { image := [], x := 0x11#8, y := 0x01#8 }) =
    some ([0x00#8, 0x11#8, 0x01#8, 0x00#8, 0x20#8], 0x0402#16, [0x11#8]) := by
  decide

/-- V-ST-3: STY; Z kept. -/
theorem test_st_3 : seen [0x0300#16] (loaded 0x0400#16 [0x8C#8, 0x00#8, 0x03#8] []
    { image := [], y := 0x22#8, p := writeP 0x22#8 }) =
    some ([0x00#8, 0x00#8, 0x22#8, 0x00#8, 0x22#8], 0x0403#16, [0x22#8]) := by
  decide

/-- V-ST-4: STA INDX: slot (0+FF)=FF, pair (FF,00). -/
theorem test_st_4 : seen [0x0500#16] (loaded 0x0400#16 [0x81#8, 0x00#8] [(0x00FF#16, 0x00#8), (0x0000#16, 0x05#8)]
    { image := [], a := 0xEE#8, x := 0xFF#8 }) =
    some ([0xEE#8, 0xFF#8, 0x00#8, 0x00#8, 0x20#8], 0x0402#16, [0xEE#8]) := by
  decide

/-- V-ST-5: store over its own operand byte. -/
theorem test_st_5 : seen [0x0401#16] (loaded 0x0400#16 [0x8D#8, 0x01#8, 0x04#8] []
    { image := [], a := 0xEA#8 }) =
    some ([0xEA#8, 0x00#8, 0x00#8, 0x00#8, 0x20#8], 0x0403#16, [0xEA#8]) := by
  decide

/-- V-TR-1: TAX negative. -/
theorem test_tr_1 : seen [] (loaded 0x0400#16 [0xAA#8] []
    { image := [], a := 0x80#8 }) =
    some ([0x80#8, 0x80#8, 0x00#8, 0x00#8, 0xA0#8], 0x0401#16, []) := by
  decide

/-- V-TR-2: TAY zero. -/
theorem test_tr_2 : seen [] (loaded 0x0400#16 [0xA8#8] []
    { image := [], a := 0x00#8, y := 0x33#8 }) =
    some ([0x00#8, 0x00#8, 0x00#8, 0x00#8, 0x22#8], 0x0401#16, []) := by
  decide

/-- V-TR-3: TXA. -/
theorem test_tr_3 : seen [] (loaded 0x0400#16 [0x8A#8] []
    { image := [], x := 0x01#8 }) =
    some ([0x01#8, 0x01#8, 0x00#8, 0x00#8, 0x20#8], 0x0401#16, []) := by
  decide

/-- V-TR-4: TYA. -/
theorem test_tr_4 : seen [] (loaded 0x0400#16 [0x98#8] []
    { image := [], y := 0xFE#8 }) =
    some ([0xFE#8, 0x00#8, 0xFE#8, 0x00#8, 0xA0#8], 0x0401#16, []) := by
  decide

/-- V-TR-5: TSX at power-on: X=0, Z=1. -/
theorem test_tr_5 : seen [] (loaded 0x0400#16 [0xBA#8] []
    { image := [] }) =
    some ([0x00#8, 0x00#8, 0x00#8, 0x00#8, 0x22#8], 0x0401#16, []) := by
  decide

/-- V-TR-6: TXS: SP=0, flags untouched. -/
theorem test_tr_6 : seen [] (loaded 0x0400#16 [0x9A#8] []
    { image := [], x := 0x00#8, p := writeP 0xA0#8 }) =
    some ([0x00#8, 0x00#8, 0x00#8, 0x00#8, 0xA0#8], 0x0401#16, []) := by
  decide

/-- V-FL-1: CLC. -/
theorem test_fl_1 : seen [] (loaded 0x0400#16 [0x18#8] []
    { image := [], p := writeP 0xFF#8 }) =
    some ([0x00#8, 0x00#8, 0x00#8, 0x00#8, 0xFE#8], 0x0401#16, []) := by
  decide

/-- V-FL-2: SEC. -/
theorem test_fl_2 : seen [] (loaded 0x0400#16 [0x38#8] []
    { image := [], p := writeP 0x20#8 }) =
    some ([0x00#8, 0x00#8, 0x00#8, 0x00#8, 0x21#8], 0x0401#16, []) := by
  decide

/-- V-FL-3: CLI. -/
theorem test_fl_3 : seen [] (loaded 0x0400#16 [0x58#8] []
    { image := [], p := writeP 0x24#8 }) =
    some ([0x00#8, 0x00#8, 0x00#8, 0x00#8, 0x20#8], 0x0401#16, []) := by
  decide

/-- V-FL-4: SEI. -/
theorem test_fl_4 : seen [] (loaded 0x0400#16 [0x78#8] []
    { image := [], p := writeP 0x20#8 }) =
    some ([0x00#8, 0x00#8, 0x00#8, 0x00#8, 0x24#8], 0x0401#16, []) := by
  decide

/-- V-FL-5: CLD. -/
theorem test_fl_5 : seen [] (loaded 0x0400#16 [0xD8#8] []
    { image := [], p := writeP 0x28#8 }) =
    some ([0x00#8, 0x00#8, 0x00#8, 0x00#8, 0x20#8], 0x0401#16, []) := by
  decide

/-- V-FL-6: SED. -/
theorem test_fl_6 : seen [] (loaded 0x0400#16 [0xF8#8] []
    { image := [], p := writeP 0x20#8 }) =
    some ([0x00#8, 0x00#8, 0x00#8, 0x00#8, 0x28#8], 0x0401#16, []) := by
  decide

/-- V-FL-7: CLV. -/
theorem test_fl_7 : seen [] (loaded 0x0400#16 [0xB8#8] []
    { image := [], p := writeP 0x60#8 }) =
    some ([0x00#8, 0x00#8, 0x00#8, 0x00#8, 0x20#8], 0x0401#16, []) := by
  decide

/-- V-FL-8: NOP. -/
theorem test_fl_8 : seen [] (loaded 0x0400#16 [0xEA#8] []
    { image := [], p := writeP 0xE3#8 }) =
    some ([0x00#8, 0x00#8, 0x00#8, 0x00#8, 0xE3#8], 0x0401#16, []) := by
  decide
/-! ### Witnesses: for each obligation with hypotheses, states and operands that meet all of them -/

theorem inv_of_running {s : State} (wf : Memory.wf s.mem) (h : s.halt = none) : s.Inv :=
  ⟨wf, fun r e => by rw [h] at e; cases e⟩

/-- A canonical image; an address listed twice whose last pair, at the top of memory, is neither the first nor the last of
the list, and one that no pair lists. -/
theorem witness_InvariantHoldsAtEveryLaunch :
    let before : List (Addr × Byte) := [(0xFFFF#16, 0x01#8), (0x0000#16, 0x02#8)]
    let rest : List (Addr × Byte) := [(0x0000#16, 0x00#8), (0x8000#16, 0xFF#8)]
    Memory.wf (imageOf (before ++ (0xFFFF#16, 0x03#8) :: rest)) ∧ (∀ c ∈ rest, c.1 ≠ 0xFFFF#16) ∧
      (∀ c ∈ before ++ (0xFFFF#16, 0x03#8) :: rest, c.1 ≠ 0x0001#16) :=
  ⟨by decide, by simp, by simp⟩

/-- An instruction, an illegal byte and a stop request, each from a state with the invariant. -/
theorem witness_StepKeepsInvariant :
    (State.reset.Inv ∧ ∃ t, step State.reset = .next t ∧ t.mem ≠ State.reset.mem) ∧
      (let s := loaded 0xFFFF#16 [0x02#8] [] { image := [] }
       s.Inv ∧ ∃ t, step s = .next t ∧ t.halt = some { opcode := 0x02#8, address := 0xFFFF#16 }) ∧
      (let s := loaded 0x0400#16 [0x02#8] [] { image := [], stops := [true] }
       s.Inv ∧ ∃ t, step s = .next t ∧ t.running = false ∧ t.halt = none) :=
  ⟨⟨inv_of_running (by decide) rfl, _, rfl, by decide⟩, ⟨inv_of_running (by decide) rfl, _, rfl, by decide⟩,
    inv_of_running (by decide) rfl, _, rfl, by decide⟩

theorem witness_EncodeOfDecodeIsTheBytes :
    decode [0x9D#8, 0xFF#8, 0xFF#8, 0x02#8] = .instr (.staAbsx 0xFFFF#16) [0x02#8] ∧ decode [0x00#8] = .instr .brk [] := by
  decide

/-- The lowest and the highest illegal byte, at both ends of memory, with an empty schedule and with one that has no stop
here. -/
theorem witness_IllegalBytesHaltTheCore :
    (let s := loaded 0x0000#16 [0x02#8] [] { image := [] }
     s.running = true ∧ s.hostStops.head? ≠ some true ∧ s.read s.pc = 0x02#8) ∧
      (let s := loaded 0xFFFF#16 [0xFF#8] [] { image := [], stops := [false, true] }
       s.running = true ∧ s.hostStops.head? ≠ some true ∧ s.read s.pc = 0xFF#8) := by decide

theorem witness_IllegalOpcodeChangesNothingElse :
    let s := loaded 0xFFFF#16 [0x80#8] [] { image := [], a := 0x11#8, stops := [false] }
    s.running = true ∧ s.hostStops.head? ≠ some true ∧ describeOpcode (s.read s.pc) = none := by decide

/-- The last of the three bytes lies at the start of memory. -/
theorem witness_StepRunsTheDecodedInstruction :
    let s := loaded 0xFFFE#16 [0x20#8, 0x34#8, 0x12#8] [] { image := [], stops := [false] }
    s.running = true ∧ s.hostStops.head? ≠ some true ∧
      decode [s.read s.pc, s.read (s.pc + 1#16), s.read (s.pc + 2#16)] = .instr (.jsrAbs 0x1234#16) [] := by decide

theorem witness_StopRequestTakesEffectAtABoundary :
    let s := launch { image := [], stops := [true, false] }
    s.running = true ∧ s.hostStops.head? = some true := by decide

/-- A halted core and a stopped one. -/
theorem witness_EndedCoreHasNoStep :
    (let s := (loaded 0x0400#16 [0x02#8] [] { image := [] }).raiseInvalidOpcode 0x02#8
     s.running = false ∧ s.halt = some { opcode := 0x02#8, address := 0x0400#16 }) ∧
      (let s := State.reset.honourStop
       s.running = false ∧ s.halt = none) := by decide

/-- A step after which the core runs, one that honours a stop and one that halts. -/
theorem witness_RunEndsOnlyByIllegalByteOrStop :
    (∃ t, step State.reset = .next t ∧ t.running = true) ∧
      (∃ t, step (launch { image := [], stops := [true] }) = .next t ∧ t.running = false) ∧
      ∃ t, step (loaded 0x0400#16 [0xEB#8] [] { image := [] }) = .next t ∧ t.running = false :=
  ⟨⟨_, rfl, rfl⟩, ⟨_, rfl, rfl⟩, _, rfl, rfl⟩

theorem witness_StoreIsSeenByTheNextFetch :
    let s := launch { image := [], a := 0x02#8, pc := 0xFFFD#16 }
    s.running = true ∧ s.hostStops.head? ≠ some true ∧ describeOpcode s.a = none := by decide

/-- One instruction that changes each flag. -/
theorem witness_FlagsHaveTheirListedWriters :
    let s := State.reset
    (∃ t, exec (.ldaImm 0x80#8) s = .next t ∧ t.p.n ≠ s.p.n) ∧
      (∃ t, exec (.adcImm 0x7F#8) { s with a := 0x01#8 } = .next t ∧ t.p.v ≠ s.p.v) ∧
      (∃ t, exec .brk s = .next t ∧ t.p.b ≠ s.p.b ∧ t.p.i ≠ s.p.i) ∧
      (∃ t, exec .sed s = .next t ∧ t.p.d ≠ s.p.d) ∧
      (∃ t, exec (.ldxImm 0x00#8) s = .next t ∧ t.p.z ≠ s.p.z) ∧
      ∃ t, exec (.cpyImm 0x00#8) s = .next t ∧ t.p.c ≠ s.p.c :=
  ⟨⟨_, rfl, by decide⟩, ⟨_, rfl, by decide⟩, ⟨_, rfl, by decide, by decide⟩, ⟨_, rfl, by decide⟩, ⟨_, rfl, by decide⟩,
    _, rfl, by decide⟩

/-- One instruction that changes each register, A also by a shift. -/
theorem witness_RegistersHaveTheirListedWriters :
    let s := State.reset
    (∃ t, exec .tya { s with y := 0x01#8 } = .next t ∧ t.a ≠ s.a) ∧
      (∃ t, exec .aslAcc { s with a := 0x80#8 } = .next t ∧ t.a ≠ 0x80#8) ∧
      (∃ t, exec .dex s = .next t ∧ t.x ≠ s.x) ∧
      (∃ t, exec .iny s = .next t ∧ t.y ≠ s.y) ∧
      ∃ t, exec .php s = .next t ∧ t.sp ≠ s.sp :=
  ⟨⟨_, rfl, by decide⟩, ⟨_, rfl, by decide⟩, ⟨_, rfl, by decide⟩, ⟨_, rfl, by decide⟩, _, rfl, by decide⟩

/-- A form that stores nothing, a shift of the accumulator, and a store whose indexed address wraps to 0x0000. -/
theorem witness_MemoryChangesOnlyWhereStored :
    (∃ t, exec (.ldaZp 0xFF#8) State.reset = .next t) ∧
      (Instr.ldaZp 0xFF#8).mnemonic ∉ [Mnemonic.STA, .STX, .STY, .INC, .DEC, .ASL, .LSR, .ROL, .ROR, .PHA, .PHP, .JSR, .BRK] ∧
      (∃ t, exec .rorAcc State.reset = .next t) ∧ Instr.rorAcc.mode = .ACC ∧
      (let s := launch { image := [], x := 0x01#8 }
       (∃ t, exec (.staAbsx 0xFFFF#16) s = .next t) ∧ operandOf (.staAbsx 0xFFFF#16) s = .addr 0x0000#16) :=
  ⟨⟨_, rfl⟩, by decide, ⟨_, rfl⟩, rfl, ⟨_, rfl⟩, rfl⟩

theorem witness_PushesStayInPageOne :
    (Instr.brk.mnemonic, 3) ∈ [(Mnemonic.PHA, 1), (.PHP, 1), (.JSR, 2), (.BRK, 3)] ∧
      (∃ t, exec .brk (launch { image := [], sp := 0x01#8 }) = .next t ∧ t.sp = 0xFE#8 ∧ t.read 0x01FF#16 = 0x30#8) ∧
      ∃ t, exec .pha (launch { image := [], sp := 0x00#8, a := 0x55#8 }) = .next t ∧ t.sp = 0xFF#8 ∧ t.read 0x0100#16 = 0x55#8 :=
  ⟨by decide, ⟨_, rfl, by decide, by decide⟩, _, rfl, by decide, by decide⟩

/-- PC at the top of memory, and a branch that is not taken. -/
theorem witness_PcAdvancesByTheLength :
    (∃ t, exec (.ldaAbs 0x1234#16) (launch { image := [], pc := 0xFFFF#16 }) = .next t ∧ t.pc = 0x0002#16) ∧
      (Instr.ldaAbs 0x1234#16).mnemonic ∉ [Mnemonic.JMP, .JSR, .RTS, .RTI, .BRK] ∧
      (let s := launch { image := [], pc := 0xFFFE#16 }
       (∃ t, exec (.bcsRel 0x80#8) s = .next t ∧ t.pc = 0x0000#16) ∧ branchTaken (.BCS) s.p = false) :=
  ⟨⟨_, rfl, by decide⟩, by decide, ⟨_, rfl, by decide⟩, by decide⟩

theorem witness_DecimalInterruptAndBreakFlagsAreInert :
    FlagName.D ∈ [FlagName.D, .I, .B] ∧
      (Instr.adcImm 0x01#8).mnemonic ∉ [Mnemonic.PHP, .BRK, .PLP, .RTI, .CLI, .SEI, .CLD, .SED] ∧
      ∃ t, exec (.adcImm 0x01#8) (launch { image := [], a := 0x09#8 }) = .next t ∧ t.a = 0x0A#8 :=
  ⟨by decide, by decide, _, rfl, by decide⟩

theorem witness_SetFlagChangesOnlyItsFlag :
    getFlag .V (writeP 0x40#8) = true ∧ getFlag .C (writeP 0xFE#8) = false := by decide

/-- Each direct mode at a boundary of its range. -/
theorem witness_DirectAddressingModes :
    (Instr.cmpImm 0xFF#8).addressing = .imm 0xFF#8 ∧ (Instr.bitZp 0xFF#8).addressing = .zp 0xFF#8 ∧
      (Instr.decZpx 0xFF#8).addressing = .zpx 0xFF#8 ∧ (Instr.ldxZpy 0xFF#8).addressing = .zpy 0xFF#8 ∧
      (Instr.stxZpy 0x00#8).addressing = .zpy 0x00#8 ∧ (Instr.jsrAbs 0xFFFF#16).addressing = .abs 0xFFFF#16 ∧
      (Instr.styAbs 0x0000#16).addressing = .abs 0x0000#16 ∧ (Instr.incAbsx 0xFFFF#16).addressing = .absx 0xFFFF#16 ∧
      (Instr.staAbsy 0xFFFF#16).addressing = .absy 0xFFFF#16 ∧ Instr.rolAcc.addressing = .acc ∧ Instr.rti.addressing = .imp := by
  decide

/-- The pointer in the last zero-page slot: its second byte is at 0x0000. -/
theorem witness_PointerAddressingModes :
    (Instr.ldaIndx 0xFE#8).addressing = .indx 0xFE#8 ∧ (Instr.staIndy 0xFF#8).addressing = .indy 0xFF#8 ∧
      (let s := launch { image := [], x := 0x01#8 }
       let lo : Addr := 0x00FF#16
       let hi : Addr := 0x0000#16
       lo.toNat = ((0xFE#8).toNat + s.x.toNat) % 256 ∧ hi.toNat = ((0xFE#8).toNat + s.x.toNat + 1) % 256 ∧
         lo.toNat = (0xFF#8).toNat ∧ hi.toNat = ((0xFF#8).toNat + 1) % 256) := by decide

/-- A backward branch at the end of a page, and a pointer at the end of a page. -/
theorem witness_ControlTransferTargets :
    (Instr.bneRel 0x80#8).addressing = .rel 0x80#8 ∧ (Instr.jmpInd 0x02FF#16).addressing = .ind 0x02FF#16 ∧
      (0x0200#16).toNat = 256 * ((0x02FF#16).toNat / 256) + ((0x02FF#16).toNat % 256 + 1) % 256 ∧
      operandOf (.bneRel 0x80#8) (launch { image := [], pc := 0x02FE#16 }) = .target 0x027E#16 := by decide

theorem witness_AdcAddsWithCarry :
    (Instr.adcImm 0x00#8).opcode = 0x69#8 ∧ (Instr.adcIndy 0xFF#8).opcode = 0x71#8 := by decide

theorem witness_SbcSubtractsWithBorrow :
    (Instr.sbcImm 0xFF#8).opcode = 0xE9#8 ∧ (Instr.sbcIndx 0xFF#8).opcode = 0xE1#8 := by decide

/-- Overflow to either side and none. -/
theorem witness_CarryAndOverflowOfTheAdder :
    (add8 0x7F#8 0x00#8 true).overflow = true ∧ (add8 0x80#8 0xFF#8 false).overflow = true ∧
      (add8 0x80#8 0x7F#8 true).overflow = false ∧ (add8 0x80#8 (~~~0x01#8) true).overflow = true ∧
      (add8 0x00#8 (~~~0x00#8) true).carry = true ∧ (add8 0x00#8 (~~~0x00#8) false).carry = false := by decide

/-- Each of the three comparisons, with its register. -/
theorem witness_ComparesWriteCarryZeroNegative :
    let s := launch { image := [], a := 0x01#8, x := 0x80#8, y := 0xFF#8 }
    ((Instr.cmpAbsy 0xFFFF#16).opcode = 0xD9#8 ∧ s.a = 0x01#8) ∧ ((Instr.cpxZp 0x00#8).opcode = 0xE4#8 ∧ s.x = 0x80#8) ∧
      ((Instr.cpyImm 0xFF#8).opcode = 0xC0#8 ∧ s.y = 0xFF#8) := by decide

theorem witness_IncAndDecChangeOneByte :
    (Instr.incZpx 0xFF#8).opcode = 0xF6#8 ∧ (Instr.decAbsx 0xFFFF#16).opcode = 0xDE#8 ∧
      ∃ t, exec (.decAbsx 0xFFFF#16) (launch { image := [], x := 0x01#8 }) = .next t ∧ t.read 0x0000#16 = 0xFF#8 :=
  ⟨by decide, by decide, _, rfl, by decide⟩

theorem witness_IndexRegistersStepByOne :
    [Instr.inx.opcode, Instr.iny.opcode, Instr.dex.opcode, Instr.dey.opcode] = [0xE8#8, 0xC8#8, 0xCA#8, 0x88#8] ∧
      ∃ t, exec .dex (launch { image := [], x := 0x00#8 }) = .next t ∧ t.x = 0xFF#8 :=
  ⟨by decide, _, rfl, by decide⟩

/-- Each of the four shifts, of the accumulator and at an address that wraps. -/
theorem witness_ShiftsAndRotates :
    [Instr.aslAcc.opcode, Instr.lsrAcc.opcode, Instr.rolAcc.opcode, Instr.rorAcc.opcode] = [0x0A#8, 0x4A#8, 0x2A#8, 0x6A#8] ∧
      (Instr.aslZpx 0xFF#8).opcode = 0x16#8 ∧ (Instr.lsrAbsx 0xFFFF#16).opcode = 0x5E#8 ∧ (Instr.rolZp 0xFF#8).opcode = 0x26#8 ∧
      (Instr.rorAbs 0xFFFF#16).opcode = 0x6E#8 ∧ operandOf (.aslZpx 0xFF#8) (launch { image := [], x := 0x01#8 }) = .addr 0x0000#16 ∧
      Instr.rorAcc.mode = .ACC ∧ (Instr.rorAbs 0xFFFF#16).mode ≠ .ACC := by decide

theorem witness_RotatesRunThroughNineBits :
    ∃ t, exec .rolAcc (launch { image := [], a := 0x80#8, p := writeP 0x21#8 }) = .next t ∧ t.a = 0x01#8 ∧ t.p.c = true :=
  ⟨_, rfl, by decide, by decide⟩

theorem witness_LogicOnTheAccumulator :
    (Instr.andIndy 0xFF#8).opcode = 0x31#8 ∧ (Instr.oraAbsx 0xFFFF#16).opcode = 0x1D#8 ∧
      (Instr.eorImm 0xFF#8).opcode = 0x49#8 := by decide

theorem witness_BitTestsAgainstTheAccumulator :
    (Instr.bitZp 0x00#8).opcode = 0x24#8 ∧ (Instr.bitAbs 0xFFFF#16).opcode = 0x2C#8 := by decide

/-- Each branch taken and not taken. -/
theorem witness_BranchesTestOneFlag :
    (∀ taken, ∃ p : Byte, let s := launch { image := [], p := writeP p }
      ((Instr.bccRel 0x80#8).opcode, taken) = (0x90#8, !s.p.c) ∧ ((Instr.beqRel 0x7F#8).opcode, taken) = (0xF0#8, s.p.z) ∧
        ((Instr.bmiRel 0x00#8).opcode, taken) = (0x30#8, s.p.n) ∧ ((Instr.bvcRel 0xFF#8).opcode, taken) = (0x50#8, !s.p.v)) ∧
      (∀ taken, ∃ p : Byte, let s := launch { image := [], p := writeP p }
        ((Instr.bcsRel 0x80#8).opcode, taken) = (0xB0#8, s.p.c) ∧ ((Instr.bneRel 0x7F#8).opcode, taken) = (0xD0#8, !s.p.z) ∧
          ((Instr.bplRel 0x00#8).opcode, taken) = (0x10#8, !s.p.n) ∧ ((Instr.bvsRel 0xFF#8).opcode, taken) = (0x70#8, s.p.v)) := by
  refine ⟨fun taken => ?_, fun taken => ?_⟩ <;> cases taken
  · exact ⟨0x41#8, by decide⟩
  · exact ⟨0x82#8, by decide⟩
  · exact ⟨0x82#8, by decide⟩
  · exact ⟨0x41#8, by decide⟩

/-- Taken at offset 0, at offset 2 within the page and at the end of a page, and not taken at the top of memory. -/
theorem witness_TakenBranchStaysInItsPage :
    let taken := launch { image := [], pc := 0x03FD#16 }
    (∃ t, exec (.bneRel 0x00#8) taken = .next t) ∧ (∃ t, exec (.bneRel 0x02#8) taken = .next t) ∧
      branchTaken .BNE taken.p = true ∧ (Instr.bneRel 0x02#8).mode = .REL ∧ (Instr.bneRel 0x00#8).addressing = .rel 0x00#8 ∧
      taken.pc.toNat % 256 < 254 ∧
      (∃ t, exec (.bneRel 0x7F#8) (launch { image := [], pc := 0x02FE#16 }) = .next t ∧ t.pc = 0x027D#16) ∧
      branchTaken .BEQ taken.p = false ∧
      ∃ t, exec (.beqRel 0x02#8) (launch { image := [], pc := 0xFFFE#16 }) = .next t ∧ t.pc = 0x0000#16 :=
  ⟨⟨_, rfl⟩, ⟨_, rfl⟩, by decide, by decide, by decide, by decide, ⟨_, rfl, by decide⟩, by decide, _, rfl, by decide⟩

theorem witness_JumpsSetPc :
    ((Instr.jmpAbs 0xFFFF#16).opcode = 0x4C#8 ∧ (Instr.jmpAbs 0xFFFF#16).addressing = .abs 0xFFFF#16) ∧
      (Instr.jmpInd 0xFFFF#16).opcode = 0x6C#8 ∧ (Instr.jmpInd 0xFFFF#16).addressing = .ind 0xFFFF#16 ∧
      (0xFF00#16).toNat = 256 * ((0xFFFF#16).toNat / 256) + ((0xFFFF#16).toNat % 256 + 1) % 256 := by decide

/-- The push slot at both ends of page 1, and the pull slot that wraps. -/
theorem witness_PushAndPullAccumulator :
    (let s := launch { image := [], sp := 0x00#8 }
     (0x0100#16).toNat = 256 + s.sp.toNat ∧ (0x0101#16).toNat = 256 + (s.sp.toNat + 1) % 256) ∧
      (let s := launch { image := [], sp := 0xFF#8 }
       (0x01FF#16).toNat = 256 + s.sp.toNat ∧ (0x0100#16).toNat = 256 + (s.sp.toNat + 1) % 256) := by decide

theorem witness_PushAndPullStatus :
    let s := launch { image := [], sp := 0xFF#8, p := writeP 0xFF#8 }
    (0x01FF#16).toNat = 256 + s.sp.toNat ∧ (0x0100#16).toNat = 256 + (s.sp.toNat + 1) % 256 := by decide

/-- The return address wraps from the bottom of page 1 to its top. -/
theorem witness_JsrPushesReturnAddress :
    let s := launch { image := [], sp := 0x00#8, pc := 0xFFFE#16 }
    (0x0100#16).toNat = 256 + s.sp.toNat ∧ (0x01FF#16).toNat = 256 + (s.sp.toNat + 255) % 256 := by decide

theorem witness_RtsPullsReturnAddress :
    let s := launch { image := [], sp := 0xFE#8 }
    (0x01FF#16).toNat = 256 + (s.sp.toNat + 1) % 256 ∧ (0x0100#16).toNat = 256 + (s.sp.toNat + 2) % 256 := by decide

theorem witness_BrkTakesTheTrap :
    let s := launch { image := [], sp := 0x01#8 }
    (0x0101#16).toNat = 256 + s.sp.toNat ∧ (0x0100#16).toNat = 256 + (s.sp.toNat + 255) % 256 ∧
      (0x01FF#16).toNat = 256 + (s.sp.toNat + 254) % 256 := by decide

theorem witness_RtiReturns :
    let s := launch { image := [], sp := 0xFD#8 }
    (0x01FE#16).toNat = 256 + (s.sp.toNat + 1) % 256 ∧ (0x01FF#16).toNat = 256 + (s.sp.toNat + 2) % 256 ∧
      (0x0100#16).toNat = 256 + (s.sp.toNat + 3) % 256 := by decide

theorem witness_LoadsSetRegisterAndFlags :
    (Instr.ldaIndx 0xFF#8).opcode = 0xA1#8 ∧ (Instr.ldxZpy 0xFF#8).opcode = 0xB6#8 ∧
      (Instr.ldyAbsx 0xFFFF#16).opcode = 0xBC#8 := by decide

theorem witness_StaStoresTheAccumulator :
    (Instr.staIndy 0xFF#8).opcode = 0x91#8 ∧ (Instr.staAbsx 0xFFFF#16).opcode = 0x9D#8 := by decide

theorem witness_StxAndStyStoreTheIndex :
    (Instr.stxZpy 0xFF#8).opcode = 0x96#8 ∧ (Instr.styAbs 0xFFFF#16).opcode = 0x8C#8 := by decide

theorem witness_TransfersCopyARegister :
    Instr.tax.opcode = 0xAA#8 ∧ Instr.tay.opcode = 0xA8#8 ∧ Instr.txa.opcode = 0x8A#8 ∧ Instr.tya.opcode = 0x98#8 ∧
      Instr.tsx.opcode = 0xBA#8 ∧ Instr.txs.opcode = 0x9A#8 := by decide

theorem witness_FlagInstructionsWriteOneFlag :
    Instr.clc.opcode = 0x18#8 ∧ Instr.sec.opcode = 0x38#8 ∧ Instr.cli.opcode = 0x58#8 ∧ Instr.sei.opcode = 0x78#8 ∧
      Instr.cld.opcode = 0xD8#8 ∧ Instr.sed.opcode = 0xF8#8 ∧ Instr.clv.opcode = 0xB8#8 ∧ Instr.nop.opcode = 0xEA#8 := by
  decide

/-- A read that may cross a page, a taken branch before and at 0xFE of its page. -/
theorem witness_ExtraCyclesWhereTheSpecHasThem :
    extraKind (Instr.ldaIndy 0xFF#8).opcode = .pageCross ∧
      (Instr.bneRel 0x00#8).mode = .REL ∧ extraCycles (.bneRel 0x00#8) .branch (launch { image := [], pc := 0x02FD#16 }) = 1 ∧
      extraCycles (.bneRel 0x00#8) .branch (launch { image := [], pc := 0x02FE#16 }) = 2 :=
  ⟨by decide, by decide, by decide, by decide⟩

/-! ### The end of a run -/

/-- V-ILL-6 of 95_test_vectors.md: the halt at the top of memory. -/
theorem test_illegal_halts_at_the_top :
    ∃ t, step (loaded 0xFFFF#16 [0x02#8] [] { image := [] }) = .next t ∧ t.running = false ∧ t.pc = 0xFFFF#16 ∧
      t.halt = some { opcode := 0x02#8, address := 0xFFFF#16 } :=
  ⟨_, rfl, by decide, by decide, by decide⟩

/-- V-RUN-2: the stop comes first, with no halt report, in front of an illegal byte. -/
theorem test_stop_before_illegal :
    ∃ t, step (loaded 0x0400#16 [0x02#8] [] { image := [], stops := [true] }) = .next t ∧ t.running = false ∧ t.pc = 0x0400#16 ∧ t.halt = none :=
  ⟨_, rfl, by decide, by decide, by decide⟩

/-- V-RUN-1: no further step changes a halted core. -/
theorem test_halted_core_has_no_step :
    step ((loaded 0x0400#16 [0x02#8] [] { image := [] }).raiseInvalidOpcode 0x02#8) = .fault (.invalidOpcode 0x02#8 0x0400#16) := rfl

/-- A word placed where the next step fetches runs after reset. -/
theorem test_withFetchWord_runs :
    seen [] (State.reset.withFetchWord 16 0x05A9) = some ([0x05#8, 0x00#8, 0x00#8, 0x00#8, 0x20#8], 0x0002#16, []) := by decide

theorem test_reset_inv : State.reset.Inv := inv_of_running (by decide) rfl

/-- 20_memory.md R80, R81 and the canonical form: a byte is written, overwritten and removed. -/
theorem test_memory_canonical :
    imageOf [(0x0200#16, 0x01#8), (0x0100#16, 0x02#8), (0x0200#16, 0x03#8), (0x0100#16, 0x00#8)] = [(0x0200, 0x03#8)] := by
  decide

end Sys2Proof.Tests
end

section
/-! PROOFS. The addressing modes of 41_addressing_modes.md as numbers (R161 to R169, R171, R173). -/

namespace Sys2Proof.Machine

/-! ### The operand by its addressing -/

/-- Beyond the addressing, only the mnemonic matters to the resolver. -/
theorem operandOf_of_addressing {i : Instr} {d : Addressing} (h : i.addressing = d) (s : State) :
    operandOf i s = resolve i.mnemonic d s := by
  rw [operandOf, h]

theorem resolve_abs (m : Mnemonic) (w : Addr) (s : State) :
    resolve m (.abs w) s = if m ∈ [Mnemonic.JMP, .JSR] then .target w else .addr w := by
  simp [resolve, isJump, eaAbs]

@[simp] theorem Operand.load_value (v : Byte) (s : State) : (Operand.value v).load s = some v := rfl
@[simp] theorem Operand.load_addr (ea : Addr) (s : State) : (Operand.addr ea).load s = some (s.read ea) := rfl
@[simp] theorem Operand.load_acc (s : State) : Operand.acc.load s = some s.a := rfl
@[simp] theorem Operand.store_acc (v : Byte) (s : State) : Operand.acc.store v s = some (s.setA v) := rfl

/-! ### The modes that few instructions take (41_addressing_modes.md R164, R171) -/

theorem eq_of_addressing_zpy {i : Instr} {z : Byte} (h : i.addressing = .zpy z) :
    i = .ldxZpy z ∨ i = .stxZpy z :=
  match i, h with
  | .ldxZpy _, rfl => .inl rfl
  | .stxZpy _, rfl => .inr rfl

theorem eq_of_addressing_acc {i : Instr} (h : i.addressing = .acc) :
    i = .aslAcc ∨ i = .lsrAcc ∨ i = .rolAcc ∨ i = .rorAcc :=
  match i, h with
  | .aslAcc, _ => .inl rfl
  | .lsrAcc, _ => .inr (.inl rfl)
  | .rolAcc, _ => .inr (.inr (.inl rfl))
  | .rorAcc, _ => .inr (.inr (.inr rfl))

theorem mnemonic_of_addressing_zpy {i : Instr} {z : Byte} (h : i.addressing = .zpy z) :
    i.mnemonic ∈ [Mnemonic.LDX, .STX] := by
  obtain rfl | rfl := eq_of_addressing_zpy h <;> simp [Instr.mnemonic]

theorem opcode_of_addressing_acc {i : Instr} (h : i.addressing = .acc) :
    i.opcode ∈ [0x0A#8, 0x4A#8, 0x2A#8, 0x6A#8] := by
  obtain rfl | rfl | rfl | rfl := eq_of_addressing_acc h <;> decide

/-! ### Pointers in page 0 (41_addressing_modes.md R168, R169) -/

/-- The pair's two addresses are known by their numbers: the second slot is the next one modulo 256. -/
theorem State.zeroPagePair_toNat (s : State) {slot : Byte} {lo hi : Addr} (hlo : lo.toNat = slot.toNat)
    (hhi : hi.toNat = (slot.toNat + 1) % 256) :
    (s.zeroPagePair slot).toNat = 256 * (s.read hi).toNat + (s.read lo).toNat := by
  have lo_eq : zext16 slot = lo := BitVec.eq_of_toNat_eq (by rw [zext16_toNat, hlo])
  have hi_eq : zext16 (slot + 1#8) = hi :=
    BitVec.eq_of_toNat_eq (by rw [zext16_toNat, BitVec.toNat_add, hhi]; rfl)
  rw [State.zeroPagePair, lo_eq, hi_eq, hiLo_toNat]

theorem eaIndx_toNat (z : Byte) (s : State) {lo hi : Addr} (hlo : lo.toNat = (z.toNat + s.x.toNat) % 256)
    (hhi : hi.toNat = (z.toNat + s.x.toNat + 1) % 256) :
    (eaIndx z s).toNat = 256 * (s.read hi).toNat + (s.read lo).toNat := by
  have slot_toNat : (z + s.x).toNat = (z.toNat + s.x.toNat) % 256 := BitVec.toNat_add ..
  exact s.zeroPagePair_toNat (by rw [hlo, slot_toNat]) (by rw [hhi, slot_toNat, Nat.mod_add_mod])

theorem eaIndy_toNat (z : Byte) (s : State) {lo hi : Addr} (hlo : lo.toNat = z.toNat)
    (hhi : hi.toNat = (z.toNat + 1) % 256) :
    (eaIndy z s).toNat = (256 * (s.read hi).toNat + (s.read lo).toNat + s.y.toNat) % 65536 := by
  rw [eaIndy, BitVec.toNat_add, s.zeroPagePair_toNat hlo hhi, zext16_toNat]

/-! ### The obligations -/

/-- Settles O26: the resolver's arm of each mode, with the effective address as a number. -/
theorem directAddressingModes : Obligations.DirectAddressingModes := by
  intro i s
  refine ⟨fun v h => ?imm, fun ea h => ?load, fun z h => ?zp, fun z h => ?zpx, fun z h => ?zpy, fun w h => ?abs,
    fun w h => ?absx, fun w h => ?absy, fun h => ?acc, fun h => ?imp⟩
  case load => rw [h, Operand.load_addr]
  all_goals have operand := operandOf_of_addressing h s
  case imm =>
    have isValue : operandOf i s = .value v := operand
    exact ⟨isValue, by rw [isValue, Operand.load_value]⟩
  case zp => exact ⟨eaZp z, operand, eaZp_toNat z⟩
  case zpx => exact ⟨eaZpx z s, operand, eaZpx_toNat z s⟩
  case zpy => exact ⟨mnemonic_of_addressing_zpy h, eaZpy z s, operand, eaZpy_toNat z s⟩
  case abs => exact operand.trans (resolve_abs i.mnemonic w s)
  case absx => exact ⟨eaAbsx w s, operand, eaAbsx_toNat w s⟩
  case absy => exact ⟨eaAbsy w s, operand, eaAbsy_toNat w s⟩
  case acc =>
    have isAcc : operandOf i s = .acc := operand
    rw [isAcc]
    exact ⟨rfl, opcode_of_addressing_acc h, Operand.load_acc s, fun v => Operand.store_acc v s⟩
  case imp => exact operand

/-- Settles O27: the pair in page 0 as a number, under the two modes that read one. -/
theorem pointerAddressingModes : Obligations.PointerAddressingModes := fun _ s z =>
  ⟨fun h _ _ hlo hhi => ⟨eaIndx z s, operandOf_of_addressing h s, eaIndx_toNat z s hlo hhi⟩,
    fun h _ _ hlo hhi => ⟨eaIndy z s, operandOf_of_addressing h s, eaIndy_toNat z s hlo hhi⟩⟩

end Sys2Proof.Machine
end

section
/-! PROOFS. Arithmetic, compare, increment and decrement (42_arithmetic.md R192 to R203). -/

namespace Sys2Proof.Machine

/-! ### An instruction by its opcode -/

/-- The family `OpcodeRow` for every instruction at once. -/
theorem opcodeRow (i : Instr) : Laws.OpcodeRow.Statement i := by
  cases i <;> exact ⟨rfl, rfl⟩

/-- The mnemonic and the mode that the decode table gives an opcode. -/
def rowOf (op : Byte) : Option (Mnemonic × Mode) := (describeOpcode op).map fun d => (d.operation, d.mode)

theorem rowOf_opcode (i : Instr) : rowOf i.opcode = some (i.mnemonic, i.mode) := by
  obtain ⟨row, -⟩ := opcodeRow i
  simpa [rowOf] using congrArg (Option.map fun r => (r.1, r.2.1)) row

/-- Every listed form is a row of the decode table, under this mnemonic. -/
def hasForms (mnemonic : Mnemonic) (forms : List (Byte × Mode)) : Bool :=
  forms.all fun form => rowOf form.1 = some (mnemonic, form.2)

theorem form_of_opcode {i : Instr} {forms : List (Byte × Mode)} {mnemonic : Mnemonic} (rows : hasForms mnemonic forms)
    (h : i.opcode ∈ forms.map Prod.fst) : i.mnemonic = mnemonic ∧ (i.opcode, i.mode) ∈ forms := by
  obtain ⟨form, listed, isOpcode⟩ := List.mem_map.mp h
  have row : rowOf form.1 = some (mnemonic, form.2) := of_decide_eq_true (List.all_eq_true.mp rows form listed)
  rw [isOpcode, rowOf_opcode] at row
  obtain ⟨rfl, isMode⟩ := Prod.mk.inj (Option.some.inj row)
  exact ⟨rfl, by rwa [← isOpcode, isMode]⟩

theorem mode_eq_of_opcode_eq {i j : Instr} (h : i.opcode = j.opcode) : i.mode = j.mode := by
  have same : some (i.mnemonic, i.mode) = some (j.mnemonic, j.mode) := by rw [← rowOf_opcode, h, rowOf_opcode]
  exact (Prod.mk.inj (Option.some.inj same)).2

/-- An instruction without operand bytes is all that the decoder makes of its opcode. -/
theorem decode_opcode_of_imp {i : Instr} (h : i.mode = .IMP) (rest : List Byte) :
    decode (i.opcode :: rest) = .instr i rest := by
  cases i <;> cases h <;> rfl

theorem eq_of_opcode_of_imp {i j : Instr} (h : i.opcode = j.opcode) (hj : j.mode = .IMP) : i = j := by
  have hi : i.mode = .IMP := (mode_eq_of_opcode_eq h).trans hj
  have same := decode_opcode_of_imp hi []
  rw [h, decode_opcode_of_imp hj] at same
  exact (Decoded.instr.inj same).1.symm

/-! ### What the mnemonics that share an operation run -/

/-- The operation of each mnemonic that loads a byte and moves past its own bytes. -/
def loadOperation : Mnemonic → Option (Byte → Nat → State → State)
  | .ADC => some adc
  | .SBC => some sbc
  | .CMP => some cmp
  | .CPX => some cpx
  | .CPY => some cpy
  | .AND => some andA
  | .ORA => some oraA
  | .EOR => some eorA
  | .BIT => some bitA
  | .LDA => some lda
  | .LDX => some ldx
  | .LDY => some ldy
  | _ => none

theorem exec_of_loadOperation {i : Instr} {f : Byte → Nat → State → State} (h : loadOperation i.mnemonic = some f)
    (s : State) : ∃ m, (operandOf i s).load s = some m ∧ exec i s = .next (f m i.mode.length s) := by
  cases i <;> cases h <;> exact ⟨_, rfl, rfl⟩

/-- What the obligations about loading forms ask for: the listed form, the loaded byte, and the operation run on it. -/
theorem exec_loadForm {i : Instr} {forms : List (Byte × Mode)} {mnemonic : Mnemonic} {f : Byte → Nat → State → State}
    (rows : hasForms mnemonic forms) (operation : loadOperation mnemonic = some f) (h : i.opcode ∈ forms.map Prod.fst)
    (s : State) :
    (i.opcode, i.mode) ∈ forms ∧ ∃ m, (operandOf i s).load s = some m ∧ exec i s = .next (f m i.mode.length s) := by
  obtain ⟨isMnemonic, isForm⟩ := form_of_opcode rows h
  exact ⟨isForm, exec_of_loadOperation (isMnemonic ▸ operation) s⟩

/-- The operation of each mnemonic that stores at the effective address, in the forms that have one. -/
def storeOperation : Mnemonic → Option (Addr → Nat → State → State)
  | .INC => some inc
  | .DEC => some dec
  | .ASL => some aslM
  | .LSR => some lsrM
  | .ROL => some rolM
  | .ROR => some rorM
  | .STA => some sta
  | .STX => some stx
  | .STY => some sty
  | _ => none

theorem exec_of_storeOperation {i : Instr} {f : Addr → Nat → State → State} (h : storeOperation i.mnemonic = some f)
    (inMemory : i.mode ≠ .ACC) (s : State) :
    ∃ ea, operandOf i s = .addr ea ∧ exec i s = .next (f ea i.mode.length s) := by
  cases i <;> cases h
  case aslAcc | lsrAcc | rolAcc | rorAcc => exact absurd rfl inMemory
  all_goals exact ⟨_, rfl, rfl⟩

/-- The same for the forms that store: the listed form, the effective address, and the operation run on it. -/
theorem exec_storeForm {i : Instr} {forms : List (Byte × Mode)} {mnemonic : Mnemonic} {f : Addr → Nat → State → State}
    (rows : hasForms mnemonic forms) (operation : storeOperation mnemonic = some f)
    (inMemory : ∀ form ∈ forms, form.2 ≠ .ACC) (h : i.opcode ∈ forms.map Prod.fst) (s : State) :
    (i.opcode, i.mode) ∈ forms ∧ ∃ ea, operandOf i s = .addr ea ∧ exec i s = .next (f ea i.mode.length s) := by
  obtain ⟨isMnemonic, isForm⟩ := form_of_opcode rows h
  exact ⟨isForm, exec_of_storeOperation (isMnemonic ▸ operation) (inMemory _ isForm) s⟩

/-! ### The flags and PC of a next state -/

theorem State.setNZ_eq_numbers (s : State) (v : Byte) :
    s.setNZ v = { s with p := { s.p with z := decide (v.toNat = 0), n := decide (128 ≤ v.toNat) } } := by
  rw [← beq_zero_iff, ← msb_iff]
  rfl

theorem movesPast_of_pc {i : Instr} {s t : State} (h : t.pc = s.pc + BitVec.ofNat 16 i.mode.length) :
    MovesPast i s t := by
  intro fits
  rw [h, BitVec.toNat_add, BitVec.toNat_ofNat]
  omega

/-! ### The adder as numbers (42_arithmetic.md R191, R193) -/

theorem add8_result_toNat (a m : Byte) (cin : Bool) :
    (add8 a m cin).result.toNat = (a.toNat + m.toNat + cin.toNat) % 256 := BitVec.toNat_ofNat ..

theorem add8_overflow (a m : Byte) (cin : Bool) :
    (add8 a m cin).overflow = decide (a.msb = m.msb ∧ (add8 a m cin).result.msb ≠ a.msb) := by
  rw [Bool.decide_and, decide_not]
  rfl

theorem adc_eq_numbers (m : Byte) (length : Nat) (s : State) :
    adc m length s = { s with
      a := (add8 s.a m s.p.c).result
      p := { s.p with
        c := decide (s.a.toNat + m.toNat + s.p.c.toNat > 255)
        v := decide (s.a.msb = m.msb ∧ (add8 s.a m s.p.c).result.msb ≠ s.a.msb)
        z := decide ((add8 s.a m s.p.c).result.toNat = 0)
        n := decide (128 ≤ (add8 s.a m s.p.c).result.toNat) }
      pc := (adc m length s).pc } := by
  rw [← add8_overflow, ← beq_zero_iff, ← msb_iff]
  exact adc_eq m length s

theorem sbc_eq_adc_not (m : Byte) (length : Nat) (s : State) : sbc m length s = adc (~~~m) length s := rfl

theorem not_toNat (m : Byte) : (~~~m).toNat = 255 - m.toNat := BitVec.toNat_not

/-- Settles O29: the adder's numbers under each of the eight forms. -/
theorem adcAddsWithCarry : Obligations.AdcAddsWithCarry := by
  intro i s h
  obtain ⟨isForm, m, loaded, runs⟩ := exec_loadForm (mnemonic := .ADC) (by decide) rfl h s
  exact ⟨isForm, m, _, _, loaded, add8_result_toNat .., runs, movesPast_of_pc (adc_pc ..), adc_eq_numbers ..⟩

/-- Settles O30: SBC runs ADC's operation on the complement. -/
theorem sbcSubtractsWithBorrow : Obligations.SbcSubtractsWithBorrow := by
  intro i s h
  obtain ⟨isForm, m, loaded, runs⟩ := exec_loadForm (mnemonic := .SBC) (by decide) rfl h s
  rw [sbc_eq_adc_not] at runs
  refine ⟨isForm, m, (add8 s.a (~~~m) s.p.c).result, _, loaded, ?_, runs, movesPast_of_pc (adc_pc ..), ?_⟩
  all_goals rw [← not_toNat]
  · exact add8_result_toNat ..
  · exact adc_eq_numbers ..

/-! ### The comparator as numbers (42_arithmetic.md R194) -/

/-- What the three compares have in common. -/
def State.compare (reg m : Byte) (length : Nat) (s : State) : State := (s.setP (cmp8 reg m s.p)).advance length

theorem cmp_eq_compare (m : Byte) (length : Nat) (s : State) : cmp m length s = s.compare s.a m length := rfl
theorem cpx_eq_compare (m : Byte) (length : Nat) (s : State) : cpx m length s = s.compare s.x m length := rfl
theorem cpy_eq_compare (m : Byte) (length : Nat) (s : State) : cpy m length s = s.compare s.y m length := rfl

theorem msb_sub (reg m : Byte) : (reg - m).msb = decide (128 ≤ (reg.toNat + 256 - m.toNat) % 256) := by
  have difference : (reg - m).toNat = (reg.toNat + 256 - m.toNat) % 256 := by
    rw [BitVec.toNat_sub]
    have := m.isLt
    omega
  rw [msb_iff, difference]

theorem State.compare_eq_numbers (reg m : Byte) (length : Nat) (s : State) :
    s.compare reg m length = { s with
      p := { s.p with
        c := decide (m.toNat ≤ reg.toNat)
        z := decide (reg = m)
        n := decide (128 ≤ (reg.toNat + 256 - m.toNat) % 256) }
      pc := (s.compare reg m length).pc } := by
  rw [← msb_sub, ← beq_eq_decide]
  rfl

/-- Settles O32: each compare is the same operation on its own register. -/
theorem comparesWriteCarryZeroNegative : Obligations.ComparesWriteCarryZeroNegative := by
  unfold Obligations.ComparesWriteCarryZeroNegative
  intro cmpForms cpxForms cpyForms i s reg h
  obtain ⟨isForm, m, loaded, runs⟩ : (i.opcode, i.mode) ∈ cmpForms ++ cpxForms ++ cpyForms ∧
      ∃ m, (operandOf i s).load s = some m ∧ exec i s = .next (s.compare reg m i.mode.length) := by
    obtain ⟨h, rfl⟩ | ⟨h, rfl⟩ | ⟨h, rfl⟩ := h
    · obtain ⟨isForm, compares⟩ := exec_loadForm (mnemonic := .CMP) (by decide +zetaReduce) rfl h s
      exact ⟨by simp [isForm], compares⟩
    · obtain ⟨isForm, compares⟩ := exec_loadForm (mnemonic := .CPX) (by decide +zetaReduce) rfl h s
      exact ⟨by simp [isForm], compares⟩
    · obtain ⟨isForm, compares⟩ := exec_loadForm (mnemonic := .CPY) (by decide +zetaReduce) rfl h s
      exact ⟨by simp [isForm], compares⟩
  exact ⟨isForm, m, _, loaded, runs, movesPast_of_pc rfl, State.compare_eq_numbers ..⟩

/-! ### One byte replaced (42_arithmetic.md R198, R199) -/

/-- What INC and DEC have in common. -/
def State.replaceByte (s : State) (ea : Addr) (v : Byte) (length : Nat) : State :=
  ((s.write ea v).setNZ v).advance length

theorem inc_eq_replaceByte (ea : Addr) (length : Nat) (s : State) :
    inc ea length s = s.replaceByte ea (s.read ea + 1#8) length := rfl
theorem dec_eq_replaceByte (ea : Addr) (length : Nat) (s : State) :
    dec ea length s = s.replaceByte ea (s.read ea - 1#8) length := rfl

theorem State.read_replaceByte_same (s : State) (ea : Addr) (v : Byte) (length : Nat) :
    (s.replaceByte ea v length).read ea = v := s.read_write_same ea v

theorem State.read_replaceByte_other (s : State) {ea addr : Addr} (v : Byte) (length : Nat) (h : addr ≠ ea) :
    (s.replaceByte ea v length).read addr = s.read addr := s.read_write_other v h

theorem add_one_toNat (v : Byte) : (v + 1#8).toNat = (v.toNat + 1) % 256 := BitVec.toNat_add ..

theorem sub_one_toNat (v : Byte) : (v - 1#8).toNat = (v.toNat + 255) % 256 := by
  rw [BitVec.toNat_sub, Nat.add_comm v.toNat]
  rfl

/-- Settles O33: both replace the byte at the resolver's address, by the next one or the previous one. -/
theorem incAndDecChangeOneByte : Obligations.IncAndDecChangeOneByte := by
  unfold Obligations.IncAndDecChangeOneByte
  intro incForms decForms i s delta h
  obtain ⟨isForm, ea, v, isAddr, runs, value⟩ : (i.opcode, i.mode) ∈ incForms ++ decForms ∧
      ∃ ea v, operandOf i s = .addr ea ∧ exec i s = .next (s.replaceByte ea v i.mode.length) ∧
        v.toNat = ((s.read ea).toNat + delta) % 256 := by
    obtain ⟨h, rfl⟩ | ⟨h, rfl⟩ := h
    · obtain ⟨isForm, ea, isAddr, runs⟩ :=
        exec_storeForm (mnemonic := .INC) (by decide +zetaReduce) rfl (by decide +zetaReduce) h s
      exact ⟨List.mem_append_left _ isForm, ea, _, isAddr, runs, add_one_toNat _⟩
    · obtain ⟨isForm, ea, isAddr, runs⟩ :=
        exec_storeForm (mnemonic := .DEC) (by decide +zetaReduce) rfl (by decide +zetaReduce) h s
      exact ⟨List.mem_append_right _ isForm, ea, _, isAddr, runs, sub_one_toNat _⟩
  refine ⟨isForm, ea, _, isAddr, runs, movesPast_of_pc rfl, ?_, fun addr => s.read_replaceByte_other v _, ?_⟩
  all_goals rw [State.read_replaceByte_same]
  · exact value
  · rw [← beq_zero_iff, ← msb_iff]
    rfl

/-! ### The index registers (42_arithmetic.md R200 to R203) -/

theorem eq_index_step {i : Instr} (h : i.opcode ∈ [0xE8#8, 0xC8#8, 0xCA#8, 0x88#8]) :
    i = .inx ∨ i = .iny ∨ i = .dex ∨ i = .dey := by
  simp only [List.mem_cons, List.not_mem_nil, or_false] at h
  exact h.imp (eq_of_opcode_of_imp · rfl) (.imp (eq_of_opcode_of_imp · rfl)
    (.imp (eq_of_opcode_of_imp · rfl) (eq_of_opcode_of_imp · rfl)))

/-- Settles O34: the four opcodes are the four instructions, each known by its opcode alone. -/
theorem indexRegistersStepByOne : Obligations.IndexRegistersStepByOne := by
  intro i s h
  obtain rfl | rfl | rfl | rfl := eq_index_step h
  · refine ⟨rfl, s.x + 1#8, _, exec_inx s, movesPast_of_pc rfl, ?_⟩
    simp [Instr.opcode, State.setNZ_eq_numbers, State.setX, State.advance, State.setPc]
  · refine ⟨rfl, s.y + 1#8, _, exec_iny s, movesPast_of_pc rfl, ?_⟩
    simp [Instr.opcode, State.setNZ_eq_numbers, State.setY, State.advance, State.setPc]
  · refine ⟨rfl, s.x - 1#8, _, exec_dex s, movesPast_of_pc rfl, ?_⟩
    simp [Instr.opcode, State.setNZ_eq_numbers, State.setX, State.advance, State.setPc, -BitVec.toNat_sub, sub_one_toNat]
  · refine ⟨rfl, s.y - 1#8, _, exec_dey s, movesPast_of_pc rfl, ?_⟩
    simp [Instr.opcode, State.setNZ_eq_numbers, State.setY, State.advance, State.setPc, -BitVec.toNat_sub, sub_one_toNat]

end Sys2Proof.Machine
end

section
/-! PROOFS. Shifts and logic (43_shift_logic.md R231 to R238). -/

namespace Sys2Proof.Machine

/-! ### Forms of several mnemonics in one list -/

/-- Every listed form is a row of the decode table, under a mnemonic that has an operation. -/
def hasOperations {α : Type} (operation : Mnemonic → Option α) (forms : List (Byte × Mode)) : Bool :=
  forms.all fun form => (rowOf form.1).any fun row => (operation row.1).isSome && row.2 = form.2

theorem operation_of_opcode {α : Type} {i : Instr} {operation : Mnemonic → Option α} {forms : List (Byte × Mode)}
    (rows : hasOperations operation forms) (h : i.opcode ∈ forms.map Prod.fst) :
    (i.opcode, i.mode) ∈ forms ∧ ∃ f, operation i.mnemonic = some f := by
  obtain ⟨form, listed, isOpcode⟩ := List.mem_map.mp h
  have row := List.all_eq_true.mp rows form listed
  rw [isOpcode, rowOf_opcode, Option.any_some, Bool.and_eq_true, Option.isSome_iff_exists] at row
  obtain ⟨hasOperation, sameMode⟩ := row
  have isMode : i.mode = form.2 := of_decide_eq_true sameMode
  exact ⟨by rwa [← isOpcode, isMode], hasOperation⟩

/-- An opcode among one mnemonic's forms fixes the operation. -/
theorem operation_unique {α : Type} {i : Instr} {operation : Mnemonic → Option α} {f g : α} {mnemonic : Mnemonic}
    {forms : List (Byte × Mode)} (here : operation i.mnemonic = some f) (rows : hasForms mnemonic forms)
    (ofMnemonic : operation mnemonic = some g) (h : i.opcode ∈ forms.map Prod.fst) : f = g := by
  obtain ⟨rfl, -⟩ := form_of_opcode rows h
  exact Option.some.inj (here.symm.trans ofMnemonic)

/-! ### The shifter as numbers (43_shift_logic.md R231 to R234) -/

theorem bitByte_toNat (b : Bool) : (bitByte b).toNat = b.toNat := by cases b <;> rfl

theorem bit7_eq (v : Byte) : v.getLsbD 7 = decide (128 ≤ v.toNat) := msb_iff v

theorem bit0_eq (v : Byte) : v.getLsbD 0 = decide (v.toNat % 2 = 1) := Nat.testBit_zero ..

theorem shiftLeft_one_toNat (v : Byte) : (v <<< 1).toNat = v.toNat * 2 % 256 := by
  rw [BitVec.toNat_shiftLeft, Nat.shiftLeft_eq]

theorem shiftRight_one_toNat (v : Byte) : (v >>> 1).toNat = v.toNat / 2 := BitVec.toNat_ushiftRight ..

theorem asl8_numbers (v : Byte) :
    (asl8 v).result.toNat = v.toNat * 2 % 256 ∧ (asl8 v).carry = decide (128 ≤ v.toNat) :=
  ⟨shiftLeft_one_toNat v, bit7_eq v⟩

theorem lsr8_numbers (v : Byte) :
    (lsr8 v).result.toNat = v.toNat / 2 ∧ (lsr8 v).carry = decide (v.toNat % 2 = 1) :=
  ⟨shiftRight_one_toNat v, bit0_eq v⟩

/-- The carry fed in takes the bit that the shift left empty, so or-ing it in adds it. -/
theorem rol8_numbers (v : Byte) (cin : Bool) :
    (rol8 v cin).result.toNat = v.toNat * 2 % 256 + cin.toNat ∧ (rol8 v cin).carry = decide (128 ≤ v.toNat) := by
  have even : v.toNat * 2 % 256 = (v.toNat % 128) <<< 1 := by omega
  refine ⟨?_, bit7_eq v⟩
  rw [rol8, BitVec.toNat_or, shiftLeft_one_toNat, bitByte_toNat, even]
  exact (Nat.shiftLeft_add_eq_or_of_lt cin.toNat_lt _).symm

theorem ror8_numbers (v : Byte) (cin : Bool) :
    (ror8 v cin).result.toNat = v.toNat / 2 + 128 * cin.toNat ∧ (ror8 v cin).carry = decide (v.toNat % 2 = 1) := by
  have low : v.toNat / 2 < 2 ^ 7 := by omega
  have high : (bitByte cin <<< 7).toNat = cin.toNat <<< 7 := by cases cin <;> rfl
  refine ⟨?_, bit0_eq v⟩
  rw [ror8, BitVec.toNat_or, shiftRight_one_toNat, high, Nat.or_comm, ← Nat.shiftLeft_add_eq_or_of_lt low,
    Nat.shiftLeft_eq]
  omega

/-! ### What the shifts and rotates run (43_shift_logic.md R230) -/

/-- What each of the four makes of a byte and the prior carry. -/
def shiftOperation : Mnemonic → Option (Byte → Bool → Shifted)
  | .ASL => some fun v _ => asl8 v
  | .LSR => some fun v _ => lsr8 v
  | .ROL => some rol8
  | .ROR => some ror8
  | _ => none

/-- What the shifts do once the result is stored. -/
def State.finishShift (r : Shifted) (length : Nat) (s : State) : State :=
  ((s.setP (setFlag .C r.carry s.p)).setNZ r.result).advance length

theorem State.finishShift_eq_numbers (r : Shifted) (length : Nat) (s : State) :
    s.finishShift r length = { s with
      p := { s.p with c := r.carry, z := decide (r.result.toNat = 0), n := decide (128 ≤ r.result.toNat) }
      pc := (s.finishShift r length).pc } := by
  rw [← beq_zero_iff, ← msb_iff]
  rfl

/-- All forms at once: the operand is loaded, its shifted byte stored back to the same place, the flags written. -/
theorem exec_of_shiftOperation {i : Instr} {f : Byte → Bool → Shifted} (h : shiftOperation i.mnemonic = some f)
    (s : State) :
    ∃ v u, (operandOf i s).load s = some v ∧ (operandOf i s).store (f v s.p.c).result s = some u ∧
      exec i s = .next (u.finishShift (f v s.p.c) i.mode.length) := by
  cases i <;> cases h <;> exact ⟨_, _, rfl, rfl, rfl⟩

theorem Operand.store_cases {o : Operand} {v : Byte} {s u : State} (h : o.store v s = some u) :
    o = .acc ∧ u = s.setA v ∨ ∃ ea, o = .addr ea ∧ u = s.write ea v :=
  match o, h with
  | .acc, rfl => .inl ⟨rfl, rfl⟩
  | .addr ea, rfl => .inr ⟨ea, rfl, rfl⟩

theorem operandOf_eq_acc_iff (i : Instr) (s : State) : operandOf i s = .acc ↔ i.mode = .ACC := by
  rw [operandOf, Instr.mode]
  cases i.addressing with
  | abs w => rw [resolve_abs]; split <;> simp [Addressing.mode]
  | _ => simp [resolve, Addressing.mode]

/-- Settles O35: the four mnemonics run one scheme over the resolver's operand, which is A or a byte of memory. -/
theorem shiftsAndRotates : Obligations.ShiftsAndRotates := by
  intro i s h
  obtain ⟨isForm, f, operation⟩ := operation_of_opcode (operation := shiftOperation) (by decide) h
  obtain ⟨v, u, loaded, stored, runs⟩ := exec_of_shiftOperation operation s
  have place := Operand.store_cases stored
  refine ⟨isForm, v, (f v s.p.c).result, (f v s.p.c).carry, _, loaded, runs, ?moves, fun asl => ?asl, fun lsr => ?lsr,
    fun rol => ?rol, fun ror => ?ror, fun inAcc => ?acc, fun inMemory => ?memory, ?state⟩
  case asl => rw [operation_unique operation (mnemonic := .ASL) (by decide) rfl asl]; exact asl8_numbers v
  case lsr => rw [operation_unique operation (mnemonic := .LSR) (by decide) rfl lsr]; exact lsr8_numbers v
  case rol => rw [operation_unique operation (mnemonic := .ROL) (by decide) rfl rol]; exact rol8_numbers v s.p.c
  case ror => rw [operation_unique operation (mnemonic := .ROR) (by decide) rfl ror]; exact ror8_numbers v s.p.c
  case moves => obtain ⟨-, rfl⟩ | ⟨ea, -, rfl⟩ := place <;> exact movesPast_of_pc rfl
  case state =>
    rw [State.finishShift_eq_numbers]
    obtain ⟨-, rfl⟩ | ⟨ea, -, rfl⟩ := place <;> rfl
  case acc =>
    rw [(operandOf_eq_acc_iff i s).mpr inAcc, Operand.store_acc] at stored
    obtain rfl := Option.some.inj stored
    exact ⟨rfl, rfl⟩
  case memory =>
    obtain ⟨isAcc, -⟩ | ⟨ea, isAddr, rfl⟩ := place
    · exact absurd ((operandOf_eq_acc_iff i s).mp isAcc) inMemory
    · exact ⟨rfl, ea, isAddr, s.read_write_same ea _, fun addr => s.read_write_other _⟩

/-! ### Logic on the accumulator (43_shift_logic.md R235 to R237) -/

/-- What each of the three makes of A and the operand. -/
def logicOperation : Mnemonic → Option (Byte → Byte → Byte)
  | .AND => some fun a m => a &&& m
  | .ORA => some fun a m => a ||| m
  | .EOR => some fun a m => a ^^^ m
  | _ => none

/-- What the operations with their result in A, and no flags but Z and N, have in common. -/
def State.replaceA (s : State) (r : Byte) (length : Nat) : State := ((s.setA r).setNZ r).advance length

theorem State.replaceA_eq_numbers (s : State) (r : Byte) (length : Nat) :
    s.replaceA r length = { s with
      a := r
      p := { s.p with z := decide (r.toNat = 0), n := decide (128 ≤ r.toNat) }
      pc := (s.replaceA r length).pc } := by
  rw [← beq_zero_iff, ← msb_iff]
  rfl

theorem loadOperation_of_logicOperation {mnemonic : Mnemonic} {f : Byte → Byte → Byte}
    (h : logicOperation mnemonic = some f) :
    loadOperation mnemonic = some fun m length s => s.replaceA (f s.a m) length := by
  cases mnemonic <;> cases h <;> rfl

/-- Settles O37: the three mnemonics put their own operation's result into A. -/
theorem logicOnTheAccumulator : Obligations.LogicOnTheAccumulator := by
  intro i s h
  obtain ⟨isForm, f, operation⟩ := operation_of_opcode (operation := logicOperation) (by decide) h
  obtain ⟨m, loaded, runs⟩ := exec_of_loadOperation (loadOperation_of_logicOperation operation) s
  refine ⟨isForm, m, f s.a m, _, loaded, runs, movesPast_of_pc rfl, fun and => ?and, fun ora => ?ora, fun eor => ?eor,
    s.replaceA_eq_numbers ..⟩
  case and => rw [operation_unique operation (mnemonic := .AND) (by decide) rfl and]; exact fun _ => BitVec.getLsbD_and
  case ora => rw [operation_unique operation (mnemonic := .ORA) (by decide) rfl ora]; exact fun _ => BitVec.getLsbD_or
  case eor => rw [operation_unique operation (mnemonic := .EOR) (by decide) rfl eor]; exact fun _ => BitVec.getLsbD_xor

/-! ### BIT (43_shift_logic.md R238) -/

theorem bitA_eq_numbers (m : Byte) (length : Nat) (s : State) :
    bitA m length s = { s with
      p := { s.p with z := decide (s.a.toNat &&& m.toNat = 0), n := m.getLsbD 7, v := m.getLsbD 6 }
      pc := (bitA m length s).pc } := by
  rw [← BitVec.toNat_and, ← beq_zero_iff]
  exact bitA_eq m length s

/-- Settles O38: the flags of BIT under both forms. -/
theorem bitTestsAgainstTheAccumulator : Obligations.BitTestsAgainstTheAccumulator := by
  intro i s h
  obtain ⟨isForm, m, loaded, runs⟩ := exec_loadForm (mnemonic := .BIT) (by decide) rfl h s
  exact ⟨isForm, m, _, loaded, runs, movesPast_of_pc (bitA_pc ..), bitA_eq_numbers ..⟩

end Sys2Proof.Machine
end

section
/-! PROOFS. Branches and jumps (44_branch_jump.md R269, R270). -/

namespace Sys2Proof.Machine

/-! ### The two forms of JMP by their opcodes -/

theorem row_of_opcode {i : Instr} {op : Byte} {mnemonic : Mnemonic} {mode : Mode}
    (row : rowOf op = some (mnemonic, mode)) (h : i.opcode = op) : i.mnemonic = mnemonic ∧ i.mode = mode := by
  rw [← h, rowOf_opcode] at row
  exact Prod.mk.inj (Option.some.inj row)

theorem eq_jmp_of_mnemonic {i : Instr} (h : i.mnemonic = .JMP) : (∃ w, i = .jmpAbs w) ∨ ∃ w, i = .jmpInd w :=
  match i, h with
  | .jmpAbs w, _ => .inl ⟨w, rfl⟩
  | .jmpInd w, _ => .inr ⟨w, rfl⟩

theorem eq_jmpAbs_of_opcode {i : Instr} (h : i.opcode = 0x4C#8) : ∃ w, i = .jmpAbs w := by
  obtain ⟨isJmp, isAbs⟩ := row_of_opcode (mnemonic := .JMP) (mode := .ABS) (by decide) h
  obtain form | ⟨w, rfl⟩ := eq_jmp_of_mnemonic isJmp
  · exact form
  · cases isAbs

theorem eq_jmpInd_of_opcode {i : Instr} (h : i.opcode = 0x6C#8) : ∃ w, i = .jmpInd w := by
  obtain ⟨isJmp, isInd⟩ := row_of_opcode (mnemonic := .JMP) (mode := .IND) (by decide) h
  obtain ⟨w, rfl⟩ | form := eq_jmp_of_mnemonic isJmp
  · cases isInd
  · exact form

/-! ### The pair at the pointer (41_addressing_modes.md R172) -/

/-- The high byte's address is known by its number: the one after the pointer, modulo 256 within the pointer's page. -/
theorem targetInd_toNat (s : State) {ptr hi : Addr}
    (hhi : hi.toNat = 256 * (ptr.toNat / 256) + (ptr.toNat % 256 + 1) % 256) :
    (targetInd ptr s).toNat = 256 * (s.read hi).toNat + (s.read ptr).toNat := by
  have hi_eq : hiLo (highByte ptr) (lowByte ptr + 1#8) = hi :=
    BitVec.eq_of_toNat_eq (by rw [hiLo_toNat, highByte_toNat, add_one_toNat, lowByte_toNat, hhi])
  rw [targetInd, hi_eq, hiLo_toNat]

/-- Settles O41: each opcode is one form of JMP, whose next state sets PC alone. -/
theorem jumpsSetPc : Obligations.JumpsSetPc := by
  intro i s w
  refine ⟨fun h addressing => ?absolute, fun h addressing hi hhi => ?indirect, fun h => ?absMode, fun h => ?indMode⟩
  case absolute =>
    obtain ⟨_, rfl⟩ := eq_jmpAbs_of_opcode h
    obtain rfl := Addressing.abs.inj addressing
    exact exec_jmpAbs _ s
  case indirect =>
    obtain ⟨_, rfl⟩ := eq_jmpInd_of_opcode h
    obtain rfl := Addressing.ind.inj addressing
    exact ⟨_, targetInd_toNat s hhi, exec_jmpInd _ s⟩
  case absMode =>
    obtain ⟨u, rfl⟩ := eq_jmpAbs_of_opcode h
    exact ⟨u, rfl⟩
  case indMode =>
    obtain ⟨u, rfl⟩ := eq_jmpInd_of_opcode h
    exact ⟨u, rfl⟩

end Sys2Proof.Machine
end

section
/-! PROOFS. Pushes and pulls, JSR and RTS (45_stack_subroutine.md R280, R282, R284, R285). -/

namespace Sys2Proof.Machine

/-! ### Slots known by their numbers (10_state.md R43; 20_memory.md R85, R86) -/

theorem State.eq_stackSlot {s : State} {slot : Addr} (h : slot.toNat = 256 + s.sp.toNat) : slot = s.stackSlot :=
  BitVec.eq_of_toNat_eq (h.trans s.stackSlot_toNat.symm)

/-- The pulled word's two slots are known by their numbers, both modulo 256 in page 1. -/
theorem State.pulledWord_toNat (s : State) {low high : Addr} (hlow : low.toNat = 256 + (s.sp.toNat + 1) % 256)
    (hhigh : high.toNat = 256 + (s.sp.toNat + 2) % 256) :
    s.pulledWord.toNat = 256 * (s.read high).toNat + (s.read low).toNat := by
  have highSlot : high.toNat = 256 + (s.afterPull.sp.toNat + 1) % 256 := by
    rw [hhigh, State.afterPull_sp, add_one_toNat, Nat.mod_add_mod]
  rw [State.pulledWord, hiLo_toNat, s.pulled_eq hlow, s.afterPull.pulled_eq highSlot]
  rfl

/-! ### Pulls after pushes -/

/-- A pull takes SP back to where it was before a push: only the pushed byte remains. -/
theorem State.afterPull_push (s : State) (v : Byte) : (s.push v).afterPull = s.write s.stackSlot v := by
  have sp : s.sp - 1#8 + 1#8 = s.sp := BitVec.sub_add_cancel ..
  rw [State.afterPull, State.push_sp, sp]
  rfl

theorem State.pulled_write_other (s : State) {addr : Addr} (v : Byte) (h : s.afterPull.stackSlot ≠ addr) :
    (s.write addr v).pulled = s.pulled := s.read_write_other v h

/-- Also where SP wraps in page 1, the slot above SP is not the one at SP. -/
theorem State.afterPull_stackSlot_ne (s : State) : s.afterPull.stackSlot ≠ s.stackSlot := by
  rw [Ne, stackSlot_inj, State.afterPull_sp]
  bv_omega

/-- Two pulls after a pushed word give the word: the low byte was pushed last, into another slot than the high byte. -/
@[simp] theorem State.pulledWord_pushWord (s : State) (w : Addr) : (s.pushWord w).pulledWord = w := by
  have low : (s.pushWord w).pulled = lowByte w := State.pulled_push ..
  have high : (s.pushWord w).afterPull.pulled = highByte w := by
    rw [State.pushWord, State.afterPull_push, State.pulled_write_other _ _ (State.afterPull_stackSlot_ne _),
      State.pulled_push]
  rw [State.pulledWord, low, high, hiLo_halves]

/-- Two pulls after a pushed word restore SP. -/
theorem State.afterPull_afterPull_pushWord (s : State) (w : Addr) :
    (s.pushWord w).afterPull.afterPull = { s with mem := (s.pushWord w).mem } := by
  have sp : s.sp - 1#8 - 1#8 + 1#8 + 1#8 = s.sp := by bv_omega
  rw [State.afterPull, State.afterPull_sp, State.pushWord_sp, sp]
  rfl

/-! ### The obligations -/

/-- Settles O42: PHA is a push of A, PLA a pull into A with the load's flags. -/
theorem pushAndPullAccumulator : Obligations.PushAndPullAccumulator := by
  refine ⟨rfl, rfl, fun s slot pulledSlot hslot hpulled => ⟨?push, ?pull⟩⟩
  case push =>
    obtain rfl := State.eq_stackSlot hslot
    have others : ∀ addr, addr ≠ s.stackSlot → (s.push s.a).read addr = s.read addr :=
      fun addr other => by rw [State.read_push, if_neg other]
    have restored : (s.push s.a).afterPull.sp = s.sp := by rw [State.afterPull_push, State.write_sp]
    exact ⟨_, _, exec_pha s, movesPast_of_pc rfl, s.read_write_same s.stackSlot s.a, others, rfl, exec_pla _,
      s.pulled_push s.a, restored⟩
  case pull =>
    refine ⟨_, exec_pla s, movesPast_of_pc rfl, ?_⟩
    rw [← s.pulled_eq hpulled, State.setNZ_eq_numbers]
    rfl

/-- Settles O45: RTS jumps past the word it pulls, which after a JSR is the return address JSR pushed. -/
theorem rtsPullsReturnAddress : Obligations.RtsPullsReturnAddress := by
  refine ⟨rfl, fun s low high hlow hhigh => ?pulls, fun s w => ?returns⟩
  case pulls =>
    have pc : (s.pulledWord + 1#16).toNat = (256 * (s.read high).toNat + (s.read low).toNat + 1) % 65536 := by
      rw [BitVec.toNat_add, s.pulledWord_toNat hlow hhigh]
      rfl
    have sp : s.sp + 1#8 + 1#8 = s.sp + 2#8 := BitVec.add_assoc ..
    refine ⟨_, pc, ?_⟩
    rw [exec_rts, ← sp]
    rfl
  case returns =>
    have pc : ((s.pushWord s.returnAddress).setPc w).pulledWord + 1#16 = s.pc + 3#16 :=
      calc (s.pushWord s.returnAddress).pulledWord + 1#16
        _ = s.pc + 2#16 + 1#16 := by rw [State.pulledWord_pushWord, State.returnAddress]
        _ = s.pc + 3#16 := BitVec.add_assoc ..
    have restored : ((s.pushWord s.returnAddress).setPc w).afterPull.afterPull
        = { s with mem := (s.pushWord s.returnAddress).mem, pc := w } :=
      congrArg (State.setPc · w) (s.afterPull_afterPull_pushWord s.returnAddress)
    refine ⟨_, _, exec_jsrAbs w s, rfl, exec_rts _, ?_⟩
    rw [pc, restored]
    rfl

end Sys2Proof.Machine
end

section
/-! PROOFS. Loads, stores of the index registers, transfers (46_load_store_transfer.md R300 to R302, R304 to R311). -/

namespace Sys2Proof.Machine

/-! ### Loads (46_load_store_transfer.md R300 to R302) -/

/-- The forms of two mnemonics have no opcode in common. -/
theorem opcode_not_mem_of_mem {i : Instr} {forms others : List (Byte × Mode)} {mnemonic other : Mnemonic}
    (rows : hasForms mnemonic forms) (otherRows : hasForms other others) (differ : mnemonic ≠ other)
    (h : i.opcode ∈ forms.map Prod.fst) : i.opcode ∉ others.map Prod.fst := fun inOthers =>
  differ ((form_of_opcode rows h).1.symm.trans (form_of_opcode otherRows inOthers).1)

theorem lda_eq_numbers (m : Byte) (length : Nat) (s : State) : lda m length s = { s with
    a := m
    p := { s.p with z := decide (m.toNat = 0), n := decide (128 ≤ m.toNat) }
    pc := (lda m length s).pc } := by
  rw [lda, State.setNZ_eq_numbers]
  rfl

theorem ldx_eq_numbers (m : Byte) (length : Nat) (s : State) : ldx m length s = { s with
    x := m
    p := { s.p with z := decide (m.toNat = 0), n := decide (128 ≤ m.toNat) }
    pc := (ldx m length s).pc } := by
  rw [ldx, State.setNZ_eq_numbers]
  rfl

theorem ldy_eq_numbers (m : Byte) (length : Nat) (s : State) : ldy m length s = { s with
    y := m
    p := { s.p with z := decide (m.toNat = 0), n := decide (128 ≤ m.toNat) }
    pc := (ldy m length s).pc } := by
  rw [ldy, State.setNZ_eq_numbers]
  rfl

/-- Settles O49: each mnemonic loads into its own register, and its opcodes are none of the other two's. -/
theorem loadsSetRegisterAndFlags : Obligations.LoadsSetRegisterAndFlags := by
  unfold Obligations.LoadsSetRegisterAndFlags
  intro ldaForms ldxForms ldyForms i s h
  have ldaRows : hasForms .LDA ldaForms := by decide +zetaReduce
  have ldxRows : hasForms .LDX ldxForms := by decide +zetaReduce
  have ldyRows : hasForms .LDY ldyForms := by decide +zetaReduce
  rw [List.map_append, List.map_append, List.mem_append, List.mem_append] at h
  obtain (h | h) | h := h
  · obtain ⟨isForm, m, loaded, runs⟩ := exec_loadForm ldaRows rfl h s
    refine ⟨by simp [isForm], m, _, loaded, runs, movesPast_of_pc (lda_pc ..), ?_⟩
    rw [if_pos h, if_neg (opcode_not_mem_of_mem ldaRows ldxRows (by decide) h),
      if_neg (opcode_not_mem_of_mem ldaRows ldyRows (by decide) h)]
    exact lda_eq_numbers ..
  · obtain ⟨isForm, m, loaded, runs⟩ := exec_loadForm ldxRows rfl h s
    refine ⟨by simp [isForm], m, _, loaded, runs, movesPast_of_pc (ldx_pc ..), ?_⟩
    rw [if_pos h, if_neg (opcode_not_mem_of_mem ldxRows ldaRows (by decide) h),
      if_neg (opcode_not_mem_of_mem ldxRows ldyRows (by decide) h)]
    exact ldx_eq_numbers ..
  · obtain ⟨isForm, m, loaded, runs⟩ := exec_loadForm ldyRows rfl h s
    refine ⟨by simp [isForm], m, _, loaded, runs, movesPast_of_pc (ldy_pc ..), ?_⟩
    rw [if_pos h, if_neg (opcode_not_mem_of_mem ldyRows ldaRows (by decide) h),
      if_neg (opcode_not_mem_of_mem ldyRows ldxRows (by decide) h)]
    exact ldy_eq_numbers ..

/-! ### Stores (46_load_store_transfer.md R304, R305) -/

/-- What the stores have in common: a register's byte at the effective address, and no flag. -/
def State.storeByte (s : State) (ea : Addr) (v : Byte) (length : Nat) : State := (s.write ea v).advance length

theorem stx_eq_storeByte (ea : Addr) (length : Nat) (s : State) : stx ea length s = s.storeByte ea s.x length := rfl
theorem sty_eq_storeByte (ea : Addr) (length : Nat) (s : State) : sty ea length s = s.storeByte ea s.y length := rfl

theorem State.read_storeByte_same (s : State) (ea : Addr) (v : Byte) (length : Nat) :
    (s.storeByte ea v length).read ea = v := s.read_write_same ea v

theorem State.read_storeByte_other (s : State) {ea addr : Addr} (v : Byte) (length : Nat) (h : addr ≠ ea) :
    (s.storeByte ea v length).read addr = s.read addr := s.read_write_other v h

/-- Settles O51: both store a byte at the resolver's address, STX its X and STY its Y. -/
theorem stxAndStyStoreTheIndex : Obligations.StxAndStyStoreTheIndex := by
  unfold Obligations.StxAndStyStoreTheIndex
  intro stxForms styForms i s h
  have stxRows : hasForms .STX stxForms := by decide +zetaReduce
  have styRows : hasForms .STY styForms := by decide +zetaReduce
  obtain ⟨isForm, ea, isAddr, runs⟩ : (i.opcode, i.mode) ∈ stxForms ++ styForms ∧ ∃ ea, operandOf i s = .addr ea ∧
      exec i s = .next (s.storeByte ea (if i.opcode ∈ stxForms.map Prod.fst then s.x else s.y) i.mode.length) := by
    rw [List.map_append, List.mem_append] at h
    obtain h | h := h
    · obtain ⟨isForm, ea, isAddr, runs⟩ := exec_storeForm stxRows rfl (by decide +zetaReduce) h s
      rw [if_pos h]
      exact ⟨List.mem_append_left _ isForm, ea, isAddr, runs⟩
    · obtain ⟨isForm, ea, isAddr, runs⟩ := exec_storeForm styRows rfl (by decide +zetaReduce) h s
      rw [if_neg (opcode_not_mem_of_mem styRows stxRows (by decide) h)]
      exact ⟨List.mem_append_right _ isForm, ea, isAddr, runs⟩
  exact ⟨isForm, ea, _, isAddr, runs, movesPast_of_pc rfl, s.read_storeByte_same .., fun _ => s.read_storeByte_other _ _,
    rfl⟩

/-! ### Transfers (46_load_store_transfer.md R306 to R311) -/

theorem eq_transfer {i : Instr} (h : i.opcode ∈ [0xAA#8, 0xA8#8, 0x8A#8, 0x98#8, 0xBA#8, 0x9A#8]) :
    i = .tax ∨ i = .tay ∨ i = .txa ∨ i = .tya ∨ i = .tsx ∨ i = .txs := by
  simp only [List.mem_cons, List.not_mem_nil, or_false] at h
  exact h.imp (eq_of_opcode_of_imp · rfl) (.imp (eq_of_opcode_of_imp · rfl) (.imp (eq_of_opcode_of_imp · rfl)
    (.imp (eq_of_opcode_of_imp · rfl) (.imp (eq_of_opcode_of_imp · rfl) (eq_of_opcode_of_imp · rfl)))))

/-! A transfer into A, X or Y is the load of the other register's byte. -/

theorem exec_tax_eq_ldx (s : State) : exec .tax s = .next (ldx s.a 1 s) := exec_tax s
theorem exec_tay_eq_ldy (s : State) : exec .tay s = .next (ldy s.a 1 s) := exec_tay s
theorem exec_txa_eq_lda (s : State) : exec .txa s = .next (lda s.x 1 s) := exec_txa s
theorem exec_tya_eq_lda (s : State) : exec .tya s = .next (lda s.y 1 s) := exec_tya s
theorem exec_tsx_eq_ldx (s : State) : exec .tsx s = .next (ldx s.sp 1 s) := exec_tsx s

/-- Settles O52: five transfers are loads of a register's byte, TXS writes SP alone. -/
theorem transfersCopyARegister : Obligations.TransfersCopyARegister := by
  intro i s h
  obtain rfl | rfl | rfl | rfl | rfl | rfl := eq_transfer h
  · refine ⟨rfl, s.a, _, exec_tax_eq_ldx s, movesPast_of_pc (ldx_pc ..), ?_⟩
    simpa [Instr.opcode] using ldx_eq_numbers s.a 1 s
  · refine ⟨rfl, s.a, _, exec_tay_eq_ldy s, movesPast_of_pc (ldy_pc ..), ?_⟩
    simpa [Instr.opcode] using ldy_eq_numbers s.a 1 s
  · refine ⟨rfl, s.x, _, exec_txa_eq_lda s, movesPast_of_pc (lda_pc ..), ?_⟩
    simpa [Instr.opcode] using lda_eq_numbers s.x 1 s
  · refine ⟨rfl, s.y, _, exec_tya_eq_lda s, movesPast_of_pc (lda_pc ..), ?_⟩
    simpa [Instr.opcode] using lda_eq_numbers s.y 1 s
  · refine ⟨rfl, s.sp, _, exec_tsx_eq_ldx s, movesPast_of_pc (ldx_pc ..), ?_⟩
    simpa [Instr.opcode] using ldx_eq_numbers s.sp 1 s
  · refine ⟨rfl, s.x, _, exec_txs s, movesPast_of_pc rfl, ?_⟩
    simp [Instr.opcode, State.setSp, State.advance, State.setPc]

end Sys2Proof.Machine
end

section
/-! PROOFS. The flag instructions and NOP (47_flags_misc.md R330, R331, R337). -/

namespace Sys2Proof.Machine

/-! ### One flag read after one flag write (10_state.md R49) -/

@[simp] theorem getFlag_setFlag_same (f : FlagName) (b : Bool) (p : Flags) : getFlag f (setFlag f b p) = b := by
  cases f <;> rfl

theorem getFlag_setFlag_other {f g : FlagName} (b : Bool) (p : Flags) (h : g ≠ f) :
    getFlag g (setFlag f b p) = getFlag g p := by
  cases f <;> cases g <;> simp [getFlag] at h ⊢

/-! ### The seven flag instructions (47_flags_misc.md R330 to R336) -/

/-- Each flag instruction with the flag it writes and the value it writes there. -/
def flagWrites : List (Instr × FlagName × Bool) :=
  [(.clc, .C, false), (.sec, .C, true), (.cli, .I, false), (.sei, .I, true), (.cld, .D, false), (.sed, .D, true),
    (.clv, .V, false)]

theorem mode_of_mem_flagWrites : ∀ w ∈ flagWrites, w.1.mode = .IMP := by decide

/-- A flag instruction is known by its opcode alone. -/
theorem mem_flagWrites_of_opcode {i : Instr} {f : FlagName} {b : Bool}
    (h : (i.opcode, f, b) ∈ flagWrites.map fun w => (w.1.opcode, w.2)) : (i, f, b) ∈ flagWrites := by
  obtain ⟨⟨j, written⟩, listed, same⟩ := List.mem_map.mp h
  obtain ⟨isOpcode, rfl⟩ := Prod.mk.inj same
  rwa [eq_of_opcode_of_imp isOpcode.symm (mode_of_mem_flagWrites _ listed)]

/-- What the flag instructions have in common: one flag gets its value, PC advances by one byte. -/
theorem exec_of_mem_flagWrites (s : State) :
    ∀ w ∈ flagWrites, exec w.1 s = .next ((s.setP (setFlag w.2.1 w.2.2 s.p)).advance 1) := by
  simp only [flagWrites, List.forall_mem_cons]
  exact ⟨exec_clc s, exec_sec s, exec_cli s, exec_sei s, exec_cld s, exec_sed s, exec_clv s, List.forall_mem_nil _⟩

/-- Settles O53: each flag instruction is one `setFlag`, NOP the length advance alone. -/
theorem flagInstructionsWriteOneFlag : Obligations.FlagInstructionsWriteOneFlag := by
  intro i s
  refine ⟨fun f b h => ?flag, fun h => ?nop⟩
  case flag =>
    have listed : (i, f, b) ∈ flagWrites := mem_flagWrites_of_opcode h
    have isImp : i.mode = .IMP := mode_of_mem_flagWrites _ listed
    have movesPast : MovesPast i s ((s.setP (setFlag f b s.p)).advance 1) := movesPast_of_pc (by rw [isImp]; rfl)
    exact ⟨isImp, _, exec_of_mem_flagWrites s _ listed, movesPast, getFlag_setFlag_same f b s.p,
      fun _ => getFlag_setFlag_other b s.p, rfl⟩
  case nop =>
    obtain rfl := eq_of_opcode_of_imp (j := .nop) h rfl
    exact ⟨rfl, exec_nop s⟩

end Sys2Proof.Machine
end

section
/-! PROOFS. Decoder and encoder as inverses (30_encoding.md R110 to R118). -/

namespace Sys2Proof.Machine

/-! ### The table's entry at an opcode -/

/-- An entry under an opcode builds an instruction, and all that it builds has that opcode and the operand bytes it was
built from. -/
inductive EntryBuilds (op : Byte) : Entry → Instr → Prop
  | one {operation mode cycles i} (opcode : i.opcode = op) (operand : i.addressing.operandBytes = []) :
      EntryBuilds op (.legal operation mode cycles (.one i)) i
  | two {operation mode cycles} (f : Byte → Instr) (b : Byte) (opcode : ∀ b, (f b).opcode = op)
      (operand : ∀ b, (f b).addressing.operandBytes = [b]) :
      EntryBuilds op (.legal operation mode cycles (.two f)) (f b)
  | three {operation mode cycles} (f : Addr → Instr) (w : Addr) (opcode : ∀ w, (f w).opcode = op)
      (operand : ∀ w, (f w).addressing.operandBytes = [lowByte w, highByte w]) :
      EntryBuilds op (.legal operation mode cycles (.three f)) (f w)

theorem decodeOpcode_builds (i : Instr) : EntryBuilds i.opcode (decodeOpcode i.opcode) i := by
  cases i <;> constructor <;> intros <;> rfl

/-- A legal byte is the opcode of the instruction that it decodes to with some operand bytes after it. -/
theorem opcode_of_legal (op : Byte) : describeOpcode op ≠ none → ∃ i : Instr, i.opcode = op := by
  have rows : ∀ op : Byte, describeOpcode op = none ∨ (decodeTableWord 24 op.toNat).map Instr.opcode = some op := by
    decide
  intro legal
  obtain ⟨i, -, isOpcode⟩ := Option.map_eq_some_iff.mp ((rows op).resolve_left legal)
  exact ⟨i, isOpcode⟩

theorem describeOpcode_eq_none_iff (op : Byte) : describeOpcode op = none ↔ decodeOpcode op = .illegal := by
  rw [describeOpcode]
  cases decodeOpcode op <;> simp

/-- The first byte alone decides whether it is rejected as illegal (30_encoding.md R117, R118). -/
theorem decode_eq_illegalOpcode_iff (op : Byte) (rest : List Byte) :
    decode (op :: rest) = .illegalOpcode op ↔ describeOpcode op = none := by
  rw [describeOpcode_eq_none_iff, decode]
  cases decodeOpcode op with
  | illegal => simp
  | legal operation mode cycles format =>
    have assembles : format.assemble op rest ≠ .illegalOpcode op := by
      obtain _ | _ | _ := format <;> obtain _ | ⟨b1, _ | ⟨b2, rest⟩⟩ := rest <;> exact Decoded.noConfusion
    exact iff_of_false assembles Entry.noConfusion

theorem describeOpcode_of_decode {op : Byte} {bytes rest : List Byte} {i : Instr}
    (h : decode (op :: bytes) = .instr i rest) : describeOpcode op ≠ none := by
  rw [Ne, ← decode_eq_illegalOpcode_iff op bytes, h]
  exact Decoded.noConfusion

/-! ### The obligations -/

/-- Settles O5: the entry at the instruction's opcode puts its operand bytes together again. -/
theorem decodeOfEncodeIsTheInstruction : Obligations.DecodeOfEncodeIsTheInstruction := by
  intro i rest
  have builds := decodeOpcode_builds i
  rw [encode, List.cons_append, decode]
  generalize i.opcode = op at builds ⊢
  generalize decodeOpcode op = entry at builds ⊢
  cases builds with
  | one _ operand => rw [operand]; rfl
  | two f b _ operand => rw [operand]; rfl
  | three f w _ operand => rw [operand]; exact congrArg (fun u => Decoded.instr (f u) rest) (hiLo_halves w)

/-- Settles O6: the first byte is an opcode, and what its entry builds from the next bytes has just those bytes. -/
theorem encodeOfDecodeIsTheBytes : Obligations.EncodeOfDecodeIsTheBytes := by
  intro bytes rest i h
  cases bytes with
  | nil => cases h
  | cons op bytes =>
    obtain ⟨j, isOpcode⟩ := opcode_of_legal op (describeOpcode_of_decode h)
    have builds := decodeOpcode_builds j
    rw [decode] at h
    rw [isOpcode] at builds
    generalize decodeOpcode op = entry at builds h
    cases builds with
    | one opcode operand =>
      cases h
      rw [encode, opcode, operand]
      rfl
    | two f _ opcode operand =>
      obtain _ | ⟨b1, bytes⟩ := bytes <;> cases h
      rw [encode, opcode, operand]
      rfl
    | three f _ opcode operand =>
      obtain _ | ⟨b1, _ | ⟨b2, bytes⟩⟩ := bytes <;> cases h
      rw [encode, opcode, operand, lowByte_hiLo, highByte_hiLo]
      rfl

/-- Settles O7: each word evaluates. -/
theorem sampleWordsDecode : Obligations.SampleWordsDecode := by
  unfold Obligations.SampleWordsDecode
  decide

end Sys2Proof.Machine
end

section
/-! PROOFS. Relative and Indirect targets, and the branches (41_addressing_modes.md R170, R172; 44_branch_jump.md R260
to R271), with the cycles they add (70_reset_and_hazards.md R393). -/

namespace Sys2Proof.Machine

/-! ### The relative target as a number (41_addressing_modes.md R170) -/

theorem targetRel_toNat (r : Byte) (s : State) :
    (targetRel r s).toNat = 256 * (s.pc.toNat / 256) + (s.pc.toNat % 256 + r.toNat) % 256 := by
  rw [targetRel, hiLo_toNat, highByte_toNat, BitVec.toNat_add, lowByte_toNat]

/-- A byte's two readings differ by 256 or not at all. -/
theorem signed8_cases (v : Byte) :
    v.toNat < 128 ∧ signed8 v = v.toNat ∨ 128 ≤ v.toNat ∧ signed8 v = (v.toNat : Int) - 256 := by
  rw [signed8, BitVec.toInt_eq_toNat_cond]
  split <;> omega

/-- Settles O28: both targets are pairs, of PC's page and of the pointer's bytes. -/
theorem controlTransferTargets : Obligations.ControlTransferTargets := by
  refine fun i s => ⟨fun r h => ?relative, fun w h hi hhi => ?indirect⟩
  case relative =>
    have number := targetRel_toNat r s
    have offset := signed8_cases r
    exact ⟨targetRel r s, operandOf_of_addressing h s, by omega, by omega⟩
  case indirect => exact ⟨targetInd w s, operandOf_of_addressing h s, targetInd_toNat s hhi⟩

/-! ### What the branches run (44_branch_jump.md R260 to R268) -/

theorem addressing_of_mode_rel {i : Instr} (h : i.mode = .REL) : ∃ r, i.addressing = .rel r := by
  rw [Instr.mode] at h
  cases e : i.addressing <;> rw [e] at h <;> cases h
  exact ⟨_, rfl⟩

/-! The test of each mnemonic. -/

@[simp] theorem branchTaken_BCC (p : Flags) : branchTaken .BCC p = (!p.c) := by
  simp [branchTaken, beq_eq_decide]
@[simp] theorem branchTaken_BCS (p : Flags) : branchTaken .BCS p = p.c := by
  simp [branchTaken, beq_eq_decide]
@[simp] theorem branchTaken_BEQ (p : Flags) : branchTaken .BEQ p = p.z := by
  simp [branchTaken, beq_eq_decide]
@[simp] theorem branchTaken_BNE (p : Flags) : branchTaken .BNE p = (!p.z) := by
  simp [branchTaken, beq_eq_decide]
@[simp] theorem branchTaken_BMI (p : Flags) : branchTaken .BMI p = p.n := by
  simp [branchTaken, beq_eq_decide]
@[simp] theorem branchTaken_BPL (p : Flags) : branchTaken .BPL p = (!p.n) := by
  simp [branchTaken, beq_eq_decide]
@[simp] theorem branchTaken_BVC (p : Flags) : branchTaken .BVC p = (!p.v) := by
  simp [branchTaken, beq_eq_decide]
@[simp] theorem branchTaken_BVS (p : Flags) : branchTaken .BVS p = p.v := by
  simp [branchTaken, beq_eq_decide]

/-- The eight are one operation: a test of the flags, and the relative target. -/
theorem exec_of_addressing_rel {i : Instr} {r : Byte} (h : i.addressing = .rel r) (s : State) :
    exec i s = .next (branch (branchTaken i.mnemonic s.p) r s) := by
  cases i <;> cases h <;> simp [Instr.mnemonic]

/-- The opcodes of the branches, each with the test of its mnemonic. -/
theorem branch_of_opcode {i : Instr} {p : Flags} {taken : Bool}
    (h : (i.opcode, taken) ∈ [(0x90#8, !p.c), (0xB0#8, p.c), (0xF0#8, p.z), (0xD0#8, !p.z), (0x30#8, p.n),
      (0x10#8, !p.n), (0x50#8, !p.v), (0x70#8, p.v)]) : i.mode = .REL ∧ branchTaken i.mnemonic p = taken := by
  have row {op mnemonic} (isRow : rowOf op = some (mnemonic, .REL)) (test : branchTaken mnemonic p = taken)
      (isOpcode : i.opcode = op) : i.mode = .REL ∧ branchTaken i.mnemonic p = taken := by
    obtain ⟨rfl, isRel⟩ := row_of_opcode isRow isOpcode
    exact ⟨isRel, test⟩
  simp only [List.mem_cons, Prod.mk.injEq, List.not_mem_nil, or_false] at h
  obtain ⟨h, rfl⟩ | ⟨h, rfl⟩ | ⟨h, rfl⟩ | ⟨h, rfl⟩ | ⟨h, rfl⟩ | ⟨h, rfl⟩ | ⟨h, rfl⟩ | ⟨h, rfl⟩ := h
  · exact row (by decide) (branchTaken_BCC p) h
  · exact row (by decide) (branchTaken_BCS p) h
  · exact row (by decide) (branchTaken_BEQ p) h
  · exact row (by decide) (branchTaken_BNE p) h
  · exact row (by decide) (branchTaken_BMI p) h
  · exact row (by decide) (branchTaken_BPL p) h
  · exact row (by decide) (branchTaken_BVC p) h
  · exact row (by decide) (branchTaken_BVS p) h

/-- Settles O39: each opcode fixes the test, and a branch changes PC alone. -/
theorem branchesTestOneFlag : Obligations.BranchesTestOneFlag := by
  intro i s taken h
  obtain ⟨isRel, test⟩ := branch_of_opcode h
  obtain ⟨r, addressing⟩ := addressing_of_mode_rel isRel
  refine ⟨isRel, targetRel r s, operandOf_of_addressing addressing s, ?_⟩
  rw [exec_of_addressing_rel addressing, test, branch_eq]

/-! ### Where a taken branch goes (44_branch_jump.md R271) -/

theorem targetRel_zero (s : State) : targetRel 0x00#8 s = s.pc := by
  rw [targetRel, BitVec.add_zero, hiLo_halves]

theorem targetRel_two {s : State} (h : s.pc.toNat % 256 < 254) : targetRel 0x02#8 s = s.pc + 2#16 := by
  apply BitVec.eq_of_toNat_eq
  rw [targetRel_toNat, BitVec.toNat_add, BitVec.toNat_ofNat, BitVec.toNat_ofNat]
  omega

/-- Settles O40: a branch changes PC alone, to a target in its own page or to PC + 2. -/
theorem takenBranchStaysInItsPage : Obligations.TakenBranchStaysInItsPage := by
  intro i s t isRel h
  obtain ⟨r, addressing⟩ := addressing_of_mode_rel isRel
  rw [exec_of_addressing_rel addressing, branch_eq] at h
  obtain rfl := Host.Outcome.next.inj h
  refine ⟨fun taken => ?page, fun taken zero => ?itself, fun taken two away => ?next, fun untaken => ?untaken⟩
  case page =>
    rw [if_pos taken, targetRel_toNat]
    omega
  case itself =>
    obtain rfl := Addressing.rel.inj (addressing.symm.trans zero)
    rw [if_pos taken, targetRel_zero]
  case next =>
    obtain rfl := Addressing.rel.inj (addressing.symm.trans two)
    rw [if_pos taken, targetRel_two away]
  case untaken =>
    rw [if_neg (by simp [untaken]), BitVec.toNat_add]
    rfl

/-! ### The cycles that a branch adds, and the table's extra column (70_reset_and_hazards.md R393) -/

/-- The extra column, by what a row's mnemonic and mode are. -/
def extraOfRow (row : Mnemonic × Mode) : ExtraCycles :=
  if row.2 ∈ [Mode.ABSX, .ABSY, .INDY] ∧
      row.1 ∈ [Mnemonic.ADC, .AND, .CMP, .EOR, .LDA, .LDX, .LDY, .ORA, .SBC] then .pageCross
  else if row.2 = .REL then .branch
  else .none

theorem extraKind_opcode (i : Instr) : extraKind i.opcode = extraOfRow (i.mnemonic, i.mode) := by
  have rows : ∀ op : Byte, ∀ row ∈ rowOf op, extraKind op = extraOfRow row := by decide
  exact rows i.opcode _ (rowOf_opcode i)

/-- Settles O54: the table's column row by row; a branch ends in its own page, and PC + 2 is in it unless its opcode is
at the last two bytes. -/
theorem extraCyclesWhereTheSpecHasThem : Obligations.ExtraCyclesWhereTheSpecHasThem := by
  refine ⟨fun i => ?column, fun i s isRel => ?branch⟩
  case column =>
    rw [extraKind_opcode, extraOfRow]
    split
    next isRead =>
      have notRel : i.mode ≠ .REL := fun isRel => by simp [isRel] at isRead
      exact ⟨iff_of_true rfl isRead, iff_of_false nofun notRel⟩
    next notRead =>
      split
      next isRel => exact ⟨iff_of_false nofun notRead, iff_of_true rfl isRel⟩
      next notRel => exact ⟨iff_of_false nofun notRead, iff_of_false nofun notRel⟩
  case branch =>
    obtain ⟨r, addressing⟩ := addressing_of_mode_rel isRel
    have isTarget : operandOf i s = .target (targetRel r s) := operandOf_of_addressing addressing s
    have samePage : highByte (targetRel r s) = highByte (s.pc + 2#16) ↔ ¬254 ≤ s.pc.toNat % 256 := by
      have next : (s.pc + 2#16).toNat = (s.pc.toNat + 2) % 65536 := BitVec.toNat_add ..
      rw [(targetRel_halves r s).1, ← BitVec.toNat_inj, highByte_toNat, highByte_toNat, next]
      omega
    simp only [extraCycles, isTarget, samePage, ite_not]

end Sys2Proof.Machine
end

section
/-! PROOFS. What holds of every instruction: that it completes, what it writes and what it leaves (10_state.md R40 to
R52; 20_memory.md R81, R85; 40_execution_cycle.md R146; 60_exceptions.md R351). -/

namespace Sys2Proof.Machine

/-! ### What an instruction runs, by its kind -/

/-- The operation of each shift in its accumulator form. -/
def accumulatorOperation : Mnemonic → Option (State → State)
  | .ASL => some aslA
  | .LSR => some lsrA
  | .ROL => some rolA
  | .ROR => some rorA
  | _ => none

theorem exec_of_accumulatorOperation {i : Instr} {f : State → State} (h : accumulatorOperation i.mnemonic = some f)
    (isAcc : i.mode = .ACC) (s : State) : exec i s = .next (f s) := by
  cases i <;> cases isAcc <;> cases h <;> rfl

theorem eq_jsrAbs_of_mnemonic {i : Instr} (h : i.mnemonic = .JSR) : ∃ w, i = .jsrAbs w :=
  match i, h with
  | .jsrAbs w, _ => ⟨w, rfl⟩

/-- An instruction's mode is one that its mnemonic takes (41_addressing_modes.md R177). -/
theorem mode_mem_modes (i : Instr) : i.mode ∈ i.mnemonic.modes := by
  obtain ⟨-, wellFormed⟩ := opcodeRow i
  rw [Instr.wellFormed, modeAllowed] at wellFormed
  exact List.contains_iff_mem.mp wellFormed

/-- The next state of an instruction, by the operation that its kind runs. -/
inductive Ran (i : Instr) (s : State) : State → Prop
  | load {f m} (operation : loadOperation i.mnemonic = some f) : Ran i s (f m i.mode.length s)
  | store {f ea} (operation : storeOperation i.mnemonic = some f) (isAddr : operandOf i s = .addr ea)
      (inMemory : i.mode ≠ .ACC) : Ran i s (f ea i.mode.length s)
  | accumulator {f} (operation : accumulatorOperation i.mnemonic = some f) (isAcc : i.mode = .ACC) : Ran i s (f s)
  | branch {r} (isRel : i.mode = .REL) : Ran i s (branch (branchTaken i.mnemonic s.p) r s)
  | jump {target} (isJmp : i.mnemonic = .JMP) : Ran i s (s.setPc target)
  | call {target} (isJsr : i.mnemonic = .JSR) : Ran i s ((s.pushWord s.returnAddress).setPc target)
  | implied {t} (isImp : i.mode = .IMP) (runs : exec i s = .next t) : Ran i s t

theorem Ran.of_load {i : Instr} {s t : State} {f} (h : exec i s = .next t)
    (operation : loadOperation i.mnemonic = some f) : Ran i s t := by
  obtain ⟨m, -, runs⟩ := exec_of_loadOperation operation s
  obtain rfl := Host.Outcome.next.inj (runs.symm.trans h)
  exact .load operation

theorem Ran.of_store {i : Instr} {s t : State} {f} (h : exec i s = .next t)
    (operation : storeOperation i.mnemonic = some f) (inMemory : i.mode ≠ .ACC) : Ran i s t := by
  obtain ⟨ea, isAddr, runs⟩ := exec_of_storeOperation operation inMemory s
  obtain rfl := Host.Outcome.next.inj (runs.symm.trans h)
  exact .store operation isAddr inMemory

theorem Ran.of_accumulator {i : Instr} {s t : State} {f} (h : exec i s = .next t)
    (operation : accumulatorOperation i.mnemonic = some f) (isAcc : i.mode = .ACC) : Ran i s t := by
  obtain rfl := Host.Outcome.next.inj ((exec_of_accumulatorOperation operation isAcc s).symm.trans h)
  exact .accumulator operation isAcc

theorem Ran.of_branch {i : Instr} {s t : State} (h : exec i s = .next t) (isRel : i.mode = .REL) : Ran i s t := by
  obtain ⟨r, addressing⟩ := addressing_of_mode_rel isRel
  obtain rfl := Host.Outcome.next.inj ((exec_of_addressing_rel addressing s).symm.trans h)
  exact .branch isRel

/-- Every instruction is of one kind, which its mnemonic tells, for the shifts with the mode. -/
theorem ran_of_exec {i : Instr} {s t : State} (h : exec i s = .next t) : Ran i s t := by
  have mode := mode_mem_modes i
  cases mnemonic : i.mnemonic <;> rw [mnemonic] at mode
  case ADC | SBC | CMP | CPX | CPY | AND | ORA | EOR | BIT | LDA | LDX | LDY =>
    exact .of_load h (congrArg loadOperation mnemonic)
  case INC | DEC | STA | STX | STY =>
    have inMemory : i.mode ≠ .ACC := fun isAcc => absurd (isAcc ▸ mode) (by decide)
    exact .of_store h (congrArg storeOperation mnemonic) inMemory
  case ASL | LSR | ROL | ROR =>
    by_cases isAcc : i.mode = .ACC
    · exact .of_accumulator h (congrArg accumulatorOperation mnemonic) isAcc
    · exact .of_store h (congrArg storeOperation mnemonic) isAcc
  case BCC | BCS | BEQ | BNE | BMI | BPL | BVC | BVS => exact .of_branch h (List.mem_singleton.mp mode)
  case JMP => obtain ⟨w, rfl⟩ | ⟨w, rfl⟩ := eq_jmp_of_mnemonic mnemonic <;> cases h <;> exact .jump rfl
  case JSR =>
    obtain ⟨w, rfl⟩ := eq_jsrAbs_of_mnemonic mnemonic
    cases h
    exact .call rfl
  all_goals exact .implied (List.mem_singleton.mp mode) h

/-! ### Every instruction completes (60_exceptions.md R351) -/

/-- Settles O14: each arm of `exec` answers a next state, made by updates of other fields than these three. -/
theorem everyInstructionCompletes : Obligations.EveryInstructionCompletes := by
  intro i s
  cases i <;> simp

/-! ### Flags and registers (10_state.md R40 to R43, R45) -/

/-- Settles O17: the flags of each operation's next state, kind by kind. -/
theorem flagsHaveTheirListedWriters : Obligations.FlagsHaveTheirListedWriters := by
  unfold Obligations.FlagsHaveTheirListedWriters
  intro nz i s t h
  cases ran_of_exec h with
  | branch | jump | call => simp
  | implied isImp => cases i <;> cases isImp <;> cases h <;> simp [nz, Instr.mnemonic]
  | load operation | store operation | accumulator operation =>
    clear h
    generalize i.mnemonic = mnemonic at operation ⊢
    cases mnemonic <;> cases operation <;> simp [nz]

/-- Settles O18: the registers of each operation's next state, kind by kind. -/
theorem registersHaveTheirListedWriters : Obligations.RegistersHaveTheirListedWriters := by
  intro i s t h
  cases ran_of_exec h with
  | branch | jump => simp
  | call isJsr => simp [isJsr]
  | implied isImp => cases i <;> cases isImp <;> cases h <;> simp [Instr.mnemonic]
  | load operation | store operation =>
    clear h
    generalize i.mnemonic = mnemonic at operation ⊢
    cases mnemonic <;> cases operation <;> simp
  | accumulator operation isAcc =>
    clear h
    generalize i.mnemonic = mnemonic at operation ⊢
    cases mnemonic <;> cases operation <;> simp [isAcc]

/-! ### Memory (20_memory.md R81, R85) -/

theorem mem_of_loadOperation {mnemonic : Mnemonic} {f : Byte → Nat → State → State}
    (h : loadOperation mnemonic = some f) (m : Byte) (length : Nat) (s : State) : (f m length s).mem = s.mem := by
  cases mnemonic <;> cases h <;> simp

theorem mem_of_accumulatorOperation {mnemonic : Mnemonic} {f : State → State}
    (h : accumulatorOperation mnemonic = some f) (s : State) : (f s).mem = s.mem := by
  cases mnemonic <;> cases h <;> simp

theorem storeOperation_isSome_iff (mnemonic : Mnemonic) :
    (storeOperation mnemonic).isSome ↔ mnemonic ∈ [Mnemonic.STA, .STX, .STY, .INC, .DEC, .ASL, .LSR, .ROL, .ROR] := by
  cases mnemonic <;> decide

theorem read_of_storeOperation_other {mnemonic : Mnemonic} {f : Addr → Nat → State → State}
    (h : storeOperation mnemonic = some f) {ea addr : Addr} (other : addr ≠ ea) (length : Nat) (s : State) :
    (f ea length s).read addr = s.read addr := by
  cases mnemonic <;> cases h <;>
    simp [inc_read, dec_read, aslM_read, lsrM_read, rolM_read, rorM_read, sta_read, stx_read, sty_read, other]

theorem mem_of_implied {i : Instr} {s t : State} (isImp : i.mode = .IMP)
    (noPush : i.mnemonic ∉ [Mnemonic.PHA, .PHP, .BRK]) (h : exec i s = .next t) : t.mem = s.mem := by
  cases i <;> cases isImp
  case pha.refl | php.refl | brk.refl => exact absurd (by decide) noPush
  all_goals
    cases h
    simp

/-- Settles O19: what neither stores nor pushes leaves the memory as data, a store writes at the resolver's address. -/
theorem memoryChangesOnlyWhereStored : Obligations.MemoryChangesOnlyWhereStored := by
  intro i s t h
  refine ⟨fun noStore addr => State.read_congr ?frame addr, fun stores inMemory => ?store⟩
  case frame =>
    cases ran_of_exec h with
    | load operation => exact mem_of_loadOperation operation ..
    | store operation _ inMemory =>
      have stores := (storeOperation_isSome_iff i.mnemonic).mp (by rw [operation]; rfl)
      exact absurd (List.mem_append_left [Mnemonic.PHA, .PHP, .JSR, .BRK] stores) (noStore.resolve_right inMemory)
    | accumulator operation => exact mem_of_accumulatorOperation operation s
    | branch => exact branch_mem ..
    | jump => rfl
    | call isJsr =>
      obtain ⟨w, rfl⟩ := eq_jsrAbs_of_mnemonic isJsr
      exact absurd noStore (by simp [Instr.mnemonic, Instr.mode, Instr.addressing, Addressing.mode])
    | implied isImp =>
      have unlisted := noStore.resolve_right (by simp [isImp])
      have pushes : ∀ m ∈ [Mnemonic.PHA, .PHP, .BRK], m ∈
          [Mnemonic.STA, .STX, .STY, .INC, .DEC, .ASL, .LSR, .ROL, .ROR, .PHA, .PHP, .JSR, .BRK] := by decide
      exact mem_of_implied isImp (mt (pushes _) unlisted) h
  case store =>
    obtain ⟨f, operation⟩ := Option.isSome_iff_exists.mp ((storeOperation_isSome_iff i.mnemonic).mpr stores)
    obtain ⟨ea, isAddr, runs⟩ := exec_of_storeOperation operation inMemory s
    obtain rfl := Host.Outcome.next.inj (runs.symm.trans h)
    exact ⟨ea, isAddr, fun addr other => read_of_storeOperation_other operation other ..⟩

/-! ### Pushes (20_memory.md R85) -/

/-- A push leaves every byte but the one at 0x0100 + SP. -/
theorem State.read_push_other {s : State} {addr : Addr} (v : Byte) (h : addr.toNat ≠ 256 + s.sp.toNat) :
    (s.push v).read addr = s.read addr :=
  s.read_write_other v fun isSlot => h (isSlot ▸ s.stackSlot_toNat)

/-- Bytes pushed one after the other, the first of the list first. -/
def State.pushAll (s : State) (bytes : List Byte) : State := bytes.foldl State.push s

/-- The pushes stay in page 1, in the slots numbered down from SP modulo 256. -/
theorem State.pushAll_frame (bytes : List Byte) (s : State) (short : bytes.length ≤ 256) :
    (s.pushAll bytes).sp.toNat = (s.sp.toNat + 256 - bytes.length) % 256 ∧
      ∀ addr : Addr, (∀ k, k < bytes.length → addr.toNat ≠ 256 + (s.sp.toNat + 256 - k) % 256) →
        (s.pushAll bytes).read addr = s.read addr := by
  induction bytes generalizing s with
  | nil =>
    have sp : s.sp.toNat = (s.sp.toNat + 256 - 0) % 256 := by omega
    exact ⟨sp, fun _ _ => rfl⟩
  | cons v rest ih =>
    rw [List.length_cons] at short ⊢
    obtain ⟨sp, frame⟩ := ih (s.push v) (by omega)
    have spPushed : (s.push v).sp.toNat = (s.sp.toNat + 255) % 256 := sub_one_toNat s.sp
    rw [spPushed] at sp frame
    refine ⟨sp.trans (by omega), fun addr outside => ?_⟩
    have below : ∀ k, k < rest.length → addr.toNat ≠ 256 + ((s.sp.toNat + 255) % 256 + 256 - k) % 256 := by
      intro k hk
      have := outside (k + 1) (by omega)
      omega
    have first := outside 0 (by omega)
    exact (frame addr below).trans (State.read_push_other v (by omega))

theorem eq_pha_of_mnemonic : ∀ {i : Instr}, i.mnemonic = .PHA → i = .pha
  | .pha, _ => rfl

theorem eq_php_of_mnemonic : ∀ {i : Instr}, i.mnemonic = .PHP → i = .php
  | .php, _ => rfl

theorem eq_brk_of_mnemonic : ∀ {i : Instr}, i.mnemonic = .BRK → i = .brk
  | .brk, _ => rfl

/-- The push instructions, each with the bytes it pushes. -/
theorem exec_pushes {i : Instr} {s t : State} {count : Nat}
    (listed : (i.mnemonic, count) ∈ [(Mnemonic.PHA, 1), (.PHP, 1), (.JSR, 2), (.BRK, 3)]) (h : exec i s = .next t) :
    ∃ bytes : List Byte, bytes.length = count ∧ t.sp = (s.pushAll bytes).sp ∧ t.mem = (s.pushAll bytes).mem := by
  simp only [List.mem_cons, Prod.mk.injEq, List.not_mem_nil, or_false] at listed
  obtain ⟨isPha, rfl⟩ | ⟨isPhp, rfl⟩ | ⟨isJsr, rfl⟩ | ⟨isBrk, rfl⟩ := listed
  · cases eq_pha_of_mnemonic isPha
    cases h
    exact ⟨[s.a], rfl, rfl, rfl⟩
  · cases eq_php_of_mnemonic isPhp
    cases h
    exact ⟨[pushedP s.p], rfl, rfl, rfl⟩
  · obtain ⟨w, rfl⟩ := eq_jsrAbs_of_mnemonic isJsr
    cases h
    exact ⟨[highByte s.returnAddress, lowByte s.returnAddress], rfl, rfl, rfl⟩
  · cases eq_brk_of_mnemonic isBrk
    cases h
    exact ⟨[highByte s.returnAddress, lowByte s.returnAddress, pushedP s.p], rfl, rfl, rfl⟩

/-- Settles O20: the four instructions push one, two or three bytes, and do nothing else to SP and the memory. -/
theorem pushesStayInPageOne : Obligations.PushesStayInPageOne := by
  intro i s t count listed h
  obtain ⟨bytes, rfl, sp, mem⟩ := exec_pushes listed h
  have short : bytes.length ≤ 256 := by
    simp only [List.mem_cons, Prod.mk.injEq, List.not_mem_nil, or_false] at listed
    omega
  obtain ⟨spPushed, frame⟩ := s.pushAll_frame bytes short
  exact ⟨sp ▸ spPushed, fun addr outside => (State.read_congr mem addr).trans (frame addr outside)⟩

/-! ### PC (40_execution_cycle.md R146) -/

theorem operandBytes_length (d : Addressing) : d.operandBytes.length + 1 = d.mode.length := by
  cases d <;> rfl

theorem encode_length (i : Instr) : (encode i).length = i.mode.length := operandBytes_length i.addressing

theorem pc_of_loadOperation {mnemonic : Mnemonic} {f : Byte → Nat → State → State}
    (h : loadOperation mnemonic = some f) (m : Byte) (length : Nat) (s : State) :
    (f m length s).pc = s.pc + BitVec.ofNat 16 length := by
  cases mnemonic <;> cases h <;> simp

theorem pc_of_storeOperation {mnemonic : Mnemonic} {f : Addr → Nat → State → State}
    (h : storeOperation mnemonic = some f) (ea : Addr) (length : Nat) (s : State) :
    (f ea length s).pc = s.pc + BitVec.ofNat 16 length := by
  cases mnemonic <;> cases h <;> simp

theorem pc_of_accumulatorOperation {mnemonic : Mnemonic} {f : State → State}
    (h : accumulatorOperation mnemonic = some f) (s : State) : (f s).pc = s.pc + 1#16 := by
  cases mnemonic <;> cases h <;> simp

theorem pc_of_implied {i : Instr} {s t : State} (isImp : i.mode = .IMP)
    (noTransfer : i.mnemonic ∉ [Mnemonic.JMP, .JSR, .RTS, .RTI, .BRK]) (h : exec i s = .next t) :
    t.pc = s.pc + 1#16 := by
  cases i <;> cases isImp
  case rts.refl | rti.refl | brk.refl => exact absurd (by decide) noTransfer
  all_goals
    cases h
    rfl

/-- Settles O21: every other kind than the transfers of control advances PC by its mode's length. -/
theorem pcAdvancesByTheLength : Obligations.PcAdvancesByTheLength := by
  intro i s t h noTransfer untaken
  have advances : t.pc = s.pc + BitVec.ofNat 16 i.mode.length := by
    cases ran_of_exec h with
    | load operation => exact pc_of_loadOperation operation ..
    | store operation => exact pc_of_storeOperation operation ..
    | accumulator operation isAcc => rw [isAcc]; exact pc_of_accumulatorOperation operation s
    | branch isRel => rw [untaken isRel, isRel]; rfl
    | jump isJmp => exact absurd (by simp [isJmp]) noTransfer
    | call isJsr => exact absurd (by simp [isJsr]) noTransfer
    | implied isImp => rw [isImp]; exact pc_of_implied isImp noTransfer h
  refine ⟨?_, encode_length i⟩
  rw [advances, encode_length, BitVec.toNat_add, BitVec.toNat_ofNat, Nat.add_mod_mod]

/-! ### D, I and B (42_arithmetic.md R190; 60_exceptions.md R352) -/

/-- Settles O22: no other arm reads or writes D, I or B, so both sides compute to one state. -/
theorem decimalInterruptAndBreakFlagsAreInert : Obligations.DecimalInterruptAndBreakFlagsAreInert := by
  intro f b i s t isInert unlisted h
  simp only [List.mem_cons, List.not_mem_nil, or_false] at isInert
  by_cases isRel : i.mode = .REL
  · obtain ⟨r, addressing⟩ := addressing_of_mode_rel isRel
    rw [exec_of_addressing_rel addressing, branch_eq] at h ⊢
    cases h
    obtain rfl | rfl | rfl := isInert <;> rfl
  cases i
  case bccRel | bcsRel | beqRel | bneRel | bmiRel | bplRel | bvcRel | bvsRel => exact absurd rfl isRel
  case php | brk | plp | rti | cli | sei | cld | sed => exact absurd (by decide) unlisted
  all_goals
    cases h
    obtain rfl | rfl | rfl := isInert <;> rfl

end Sys2Proof.Machine
end

section
/-! PROOFS. Reset, launch and step: where the invariant holds, what each step answers and how a run ends (10_state.md
section 6; 40_execution_cycle.md R140 to R151; 70_reset_and_hazards.md section 1). -/

namespace Sys2Proof.Machine

/-! ### Reset and launch (70_reset_and_hazards.md R380 to R386) -/

/-- Without a halt report the invariant is about the memory alone. -/
theorem State.inv_of_halt_none {s : State} (wf : Memory.wf s.mem) (h : s.halt = none) : s.Inv where
  memory := wf
  report r isReport := by
    rw [h] at isReport
    cases isReport

theorem State.Inv.halt_of_running {s : State} (inv : s.Inv) (h : s.running = true) : s.halt = none := by
  refine Option.eq_none_iff_forall_ne_some.mpr fun r isReport => ?_
  obtain ⟨notRunning, -⟩ := inv.report r isReport
  rw [h] at notRunning
  cases notRunning

/-- Settles O1: the first push from SP = 0x00 goes to 0x0100; the rest is the record of `State.reset`. -/
theorem resetRegistersAndStatus : Obligations.ResetRegistersAndStatus := by
  have flags : ∀ f, getFlag f State.reset.p = false := by intro f; cases f <;> rfl
  have slot : State.reset.stackSlot = 0x0100#16 := by decide
  have below : State.reset.sp - 1#8 = 0xFF#8 := by decide
  refine ⟨rfl, rfl, rfl, rfl, rfl, flags, by decide, rfl, rfl, fun v => ⟨?_, (State.push_sp ..).trans below⟩⟩
  rw [State.read_push, if_pos slot.symm]

/-- Settles O2: no byte is listed and there is no report. -/
theorem invariantHoldsAtReset : Obligations.InvariantHoldsAtReset := State.inv_of_halt_none Memory.wf_nil rfl

/-- Settles O3: a launch has no report; its image is the loader's stores, the last one for an address on top. -/
theorem invariantHoldsAtEveryLaunch : Obligations.InvariantHoldsAtEveryLaunch := by
  refine ⟨fun l wf => ⟨State.inv_of_halt_none wf rfl, rfl, rfl⟩, wf_storePairs Memory.wf_nil,
    fun before rest addr v l later => ?last, fun cells addr l unlisted => read_storePairs_other [] unlisted⟩
  have image : imageOf (before ++ (addr, v) :: rest) =
      rest.foldl (fun m c => Memory.write m c.1.toNat c.2) (Memory.write (imageOf before) addr.toNat v) :=
    imageOf_append before ((addr, v) :: rest)
  calc Memory.read (imageOf (before ++ (addr, v) :: rest)) addr.toNat
    _ = Memory.read (Memory.write (imageOf before) addr.toNat v) addr.toNat := by
        rw [image, read_storePairs_other _ later]
    _ = v := Memory.read_write_same ..

/-! ### What a step answers, case by case (40_execution_cycle.md R140 to R148) -/

theorem State.stopDue_iff (s : State) : s.stopDue = true ↔ s.hostStops.head? = some true := by
  rw [State.stopDue]
  cases s.hostStops <;> simp

theorem State.stopDue_eq_false {s : State} (h : s.hostStops.head? ≠ some true) : s.stopDue = false := by
  rwa [Ne, ← State.stopDue_iff, Bool.not_eq_true] at h

theorem step_of_stopDue {s : State} (running : s.running = true) (due : s.stopDue = true) :
    step s = .next s.passBoundary.honourStop := by
  rw [step, cycle, if_pos running, if_pos due]

theorem step_of_no_stop {s : State} (running : s.running = true) (notDue : s.stopDue = false) :
    step s = runInstruction s.passBoundary := by
  rw [step, cycle, if_pos running, notDue]
  rfl

theorem step_of_illegal {s : State} (running : s.running = true) (notDue : s.stopDue = false)
    (illegal : describeOpcode (s.read s.pc) = none) :
    step s = .next (s.passBoundary.raiseInvalidOpcode (s.read s.pc)) := by
  have bytes : s.passBoundary.fetchBytes = [s.read s.pc, s.read (s.pc + 1#16), s.read (s.pc + 2#16)] := rfl
  have rejected := (decode_eq_illegalOpcode_iff _ [s.read (s.pc + 1#16), s.read (s.pc + 2#16)]).mpr illegal
  rw [step_of_no_stop running notDue, runInstruction, bytes, rejected]

theorem step_of_instr {s : State} {i : Instr} {rest : List Byte} (running : s.running = true)
    (notDue : s.stopDue = false) (decoded : decode s.fetchBytes = .instr i rest) :
    step s = exec i s.passBoundary := by
  have decoded' : decode s.passBoundary.fetchBytes = .instr i rest := decoded
  rw [step_of_no_stop running notDue, runInstruction, decoded']

theorem step_of_ended {s : State} (ended : s.running = false) : step s = endOfRun s := by
  rw [step, cycle, ended]
  rfl

/-- Settles O9: the halt's record written out. -/
theorem illegalOpcodeChangesNothingElse : Obligations.IllegalOpcodeChangesNothingElse :=
  fun _ running noStop illegal => step_of_illegal running (State.stopDue_eq_false noStop) illegal

/-- Settles O10: the three bytes are those that the step fetches. -/
theorem stepRunsTheDecodedInstruction : Obligations.StepRunsTheDecodedInstruction :=
  fun _ _ _ running noStop decoded => step_of_instr running (State.stopDue_eq_false noStop) decoded

/-- Settles O11: the stop's record written out. -/
theorem stopRequestTakesEffectAtABoundary : Obligations.StopRequestTakesEffectAtABoundary :=
  fun s running due => step_of_stopDue running (s.stopDue_iff.mpr due)

/-- Settles O12: the fault of the end is the one that the halt report decides. -/
theorem endedCoreHasNoStep : Obligations.EndedCoreHasNoStep := by
  intro s ended
  rw [step_of_ended ended]
  cases halt : s.halt with
  | none =>
    have fault : endOfRun s = .fault .stopped := by rw [endOfRun, halt]
    simp [fault]
  | some report =>
    have fault : endOfRun s = .fault (.invalidOpcode report.opcode report.address) := by rw [endOfRun, halt]
    simp [fault]

/-- Settles O13: a stop, a halt and an instruction all answer a next state, the end of a run does not. -/
theorem runningCoreAlwaysSteps : Obligations.RunningCoreAlwaysSteps := by
  refine fun s => ⟨fun ⟨t, h⟩ => (step_cases h).1, fun running => ?_⟩
  cases due : s.stopDue with
  | true => exact ⟨_, step_of_stopDue running due⟩
  | false =>
    obtain ⟨i, rest, decoded⟩ | ⟨-, illegal⟩ := decode_fetchBytes s
    · obtain ⟨t, completes, -⟩ := everyInstructionCompletes i s.passBoundary
      exact ⟨t, (step_of_instr running due decoded).trans completes⟩
    · exact ⟨_, step_of_illegal running due illegal⟩

/-! ### What a step keeps (10_state.md section 6) -/

/-- An instruction leaves the lifecycle flag, the halt report and the schedule (10_state.md R52). -/
theorem exec_lifecycle {i : Instr} {s t : State} (h : exec i s = .next t) :
    t.running = s.running ∧ t.halt = s.halt ∧ t.hostStops = s.hostStops := by
  obtain ⟨u, completes, lifecycle⟩ := everyInstructionCompletes i s
  obtain rfl := Host.Outcome.next.inj (completes.symm.trans h)
  exact lifecycle

/-- Settles O4: only the halt makes a report, which names the byte at PC; only instructions store. -/
theorem stepKeepsInvariant : Obligations.StepKeepsInvariant := by
  intro s t inv h
  obtain ⟨running, ⟨-, rfl⟩ | ⟨-, illegal, rfl⟩ | ⟨-, i, rest, -, runs⟩⟩ := step_cases h
  · exact State.inv_of_halt_none inv.memory (inv.halt_of_running running)
  · refine ⟨inv.memory, fun r isReport => ?_⟩
    obtain rfl := Option.some.inj isReport
    exact ⟨rfl, rfl, rfl, illegal⟩
  · obtain ⟨-, halt, -⟩ := exec_lifecycle runs
    exact State.inv_of_halt_none (exec_wf runs inv.memory) (halt.trans (inv.halt_of_running running))

/-- Settles O15: a stop and a halt end the run, an instruction leaves it running. -/
theorem runEndsOnlyByIllegalByteOrStop : Obligations.RunEndsOnlyByIllegalByteOrStop := by
  intro s t h
  obtain ⟨running, answer⟩ := step_cases h
  refine ⟨?_, fun _ => running⟩
  rw [← s.stopDue_iff]
  obtain ⟨due, rfl⟩ | ⟨-, illegal, rfl⟩ | ⟨notDue, i, rest, decoded, runs⟩ := answer
  · exact iff_of_true rfl (.inl due)
  · exact iff_of_true rfl (.inr illegal)
  · have stillRunning : t.running = true := (exec_lifecycle runs).1.trans running
    have legal : describeOpcode (s.read s.pc) ≠ none := describeOpcode_of_decode decoded
    simp [stillRunning, notDue, legal]

/-! ### Illegal bytes, and a store in front of the fetch (30_encoding.md R117; 20_memory.md R93) -/

/-- Settles O8: the list is the table's illegal entries, and the halt names the byte and PC. -/
theorem illegalBytesHaltTheCore : Obligations.IllegalBytesHaltTheCore := by
  unfold Obligations.IllegalBytesHaltTheCore
  intro illegal
  have listed : ∀ op : Byte, describeOpcode op = none ↔ op ∈ illegal := by decide +zetaReduce
  refine ⟨rfl, fun op rest => (decode_eq_illegalOpcode_iff op rest).trans (listed op),
    fun s running noStop isIllegal => ?_⟩
  exact ⟨_, step_of_illegal running (State.stopDue_eq_false noStop) ((listed _).mpr isIllegal), rfl, rfl⟩

/-- Settles O16: PC is then the address of the store, so the byte fetched is A. -/
theorem storeIsSeenByTheNextFetch : Obligations.StoreIsSeenByTheNextFetch := by
  intro s
  have stored : (sta (s.pc + 3#16) 3 s).read (s.pc + 3#16) = s.a := by rw [sta_read, if_pos rfl]
  refine ⟨_, exec_staAbs (s.pc + 3#16) s, sta_pc .., congrArg some stored, fun running noStop illegal => ?_⟩
  refine ⟨_, step_of_illegal running (State.stopDue_eq_false noStop) (stored.symm ▸ illegal), ?_⟩
  exact congrArg (fun op => some (HaltReport.mk op (s.pc + 3#16))) stored

end Sys2Proof.Machine
end

section
/-! PROOFS. The status register as a byte (10_state.md R46 to R49). -/

namespace Sys2Proof.Machine

/-- Settles O23: the packed byte of each of the 128 values of the flags. -/
theorem packedStatusByte : Obligations.PackedStatusByte := by
  rintro ⟨n, v, b, d, i, z, c⟩
  revert n v b d i z c
  decide

theorem writeP_readP (p : Flags) : writeP (readP p) = p := by
  obtain ⟨h7, h6, -, h4, h3, h2, h1, h0⟩ := readP_bits p
  simp only [writeP, h7, h6, h4, h3, h2, h1, h0]

/-- Reading back a written byte: bit 5 as 1, every other bit as it was. -/
theorem readP_writeP (v : Byte) : readP (writeP v) = v ||| 0x20#8 := by
  obtain ⟨h7, h6, h5, h4, h3, h2, h1, h0⟩ := readP_bits (writeP v)
  refine BitVec.eq_of_getLsbD_eq fun k hk => ?_
  rw [BitVec.getLsbD_or]
  interval_cases k
  · rw [h0]; simp [writeP]
  · rw [h1]; simp [writeP]
  · rw [h2]; simp [writeP]
  · rw [h3]; simp [writeP]
  · rw [h4]; simp [writeP]
  · rw [h5]; simp
  · rw [h6]; simp [writeP]
  · rw [h7]; simp [writeP]

/-- Two bytes that differ in bit 5 alone are written alike. -/
theorem writeP_congr {v w : Byte} (h : v ||| 0x20#8 = w ||| 0x20#8) : writeP v = writeP w := by
  rw [← writeP_readP (writeP v), readP_writeP, h, ← readP_writeP, writeP_readP]

/-- Settles O24: bit 5 is lost by the write and comes back as 1. -/
theorem statusByteWriteThenRead : Obligations.StatusByteWriteThenRead := by
  refine ⟨readP_writeP, writeP_readP, fun v => ⟨writeP_congr ?_, writeP_congr ?_⟩⟩
  · rw [BitVec.or_assoc, BitVec.or_self]
  · ext k hk
    interval_cases k <;> simp

/-- Settles O25: reads after one write are known, and writing the value already there changes no field. -/
theorem setFlagChangesOnlyItsFlag : Obligations.SetFlagChangesOnlyItsFlag := by
  intro f g b p
  refine ⟨?reads, fun same => ?same⟩
  case reads =>
    split
    next isSame => rw [isSame, getFlag_setFlag_same]
    next differ => exact getFlag_setFlag_other b p differ
  case same =>
    subst same
    cases f <;> rfl

end Sys2Proof.Machine
end

section
/-! PROOFS. Signed arithmetic of the adder, and the rotates in sequence (42_arithmetic.md R193, R204; 43_shift_logic.md
R233). -/

namespace Sys2Proof.Machine

/-! ### The adder's carry and overflow (42_arithmetic.md R191, R204) -/

theorem signed8_not (m : Byte) : signed8 (~~~m) = -1 - signed8 m := by
  have number := not_toNat m
  have value := signed8_cases m
  have complement := signed8_cases (~~~m)
  omega

/-- The signed sum leaves the byte's range exactly when the overflow rule says so; else the result is exact. -/
theorem add8_signed (a m : Byte) (cin : Bool) :
    ((add8 a m cin).overflow = true ↔
      signed8 a + signed8 m + cin.toNat < -128 ∨ 127 < signed8 a + signed8 m + cin.toNat) ∧
      ((add8 a m cin).overflow = false → signed8 (add8 a m cin).result = signed8 a + signed8 m + cin.toNat) := by
  have result := add8_result_toNat a m cin
  have carryIn := cin.toNat_lt
  have aValue := signed8_cases a
  have mValue := signed8_cases m
  have rValue := signed8_cases (add8 a m cin).result
  rw [add8_overflow, msb_iff, msb_iff, msb_iff]
  simp only [decide_eq_true_iff, decide_eq_false_iff_not, ne_eq, decide_eq_decide]
  omega

/-- Settles O31: SBC's clauses are ADC's at the complement, whose signed value is -1 minus the operand's. -/
theorem carryAndOverflowOfTheAdder : Obligations.CarryAndOverflowOfTheAdder := by
  intro a m cin
  obtain ⟨overflow, exact⟩ := add8_signed a m cin
  obtain ⟨borrowOverflow, -⟩ := add8_signed a (~~~m) cin
  have difference : signed8 a + signed8 (~~~m) + cin.toNat = signed8 a - signed8 m - (1 - cin.toNat) := by
    rw [signed8_not]
    omega
  have sum := add8_exact a (~~~m) cin
  have complement := not_toNat m
  have carryOut := Bool.toNat_lt (add8 a (~~~m) cin).carry
  have carry : (add8 a (~~~m) cin).carry = true ↔ (add8 a (~~~m) cin).carry.toNat = 1 := by simp
  rw [difference] at borrowOverflow
  refine ⟨overflow, exact, borrowOverflow, carry.trans ?_, ?_⟩
  all_goals omega

/-! ### Rotates in sequence (43_shift_logic.md R233) -/

/-- A byte and the carry as a ring of nine bits: the carry, then the byte from bit 0 up. -/
def nineBits (vc : Byte × Bool) (k : Fin 9) : Bool := if k = 0 then vc.2 else vc.1.getLsbD (k.val - 1)

theorem nineBits_injective {x y : Byte × Bool} (h : ∀ k, nineBits x k = nineBits y k) : x = y := by
  refine Prod.ext (BitVec.eq_of_getLsbD_eq fun k hk => ?_) (h 0)
  exact h ⟨k + 1, Nat.succ_lt_succ hk⟩

/-- ROL of a byte and the carry. -/
def rolPair (vc : Byte × Bool) : Byte × Bool := ((rol8 vc.1 vc.2).result, (rol8 vc.1 vc.2).carry)

/-- One ROL turns the ring by one place. -/
theorem nineBits_rolPair (vc : Byte × Bool) (k : Fin 9) : nineBits (rolPair vc) k = nineBits vc (k - 1) := by
  obtain ⟨v, c⟩ := vc
  fin_cases k <;> cases c <;> simp [nineBits, rolPair, rol8, bitByte]

/-- ROR of a byte and the carry. -/
def rorPair (vc : Byte × Bool) : Byte × Bool := ((ror8 vc.1 vc.2).result, (ror8 vc.1 vc.2).carry)

/-- One ROR turns the ring the other way. -/
theorem nineBits_rorPair (vc : Byte × Bool) (k : Fin 9) : nineBits (rorPair vc) k = nineBits vc (k + 1) := by
  obtain ⟨v, c⟩ := vc
  fin_cases k <;> cases c <;> simp [nineBits, rorPair, ror8, bitByte]

theorem rorPair_rolPair (vc : Byte × Bool) : rorPair (rolPair vc) = vc :=
  nineBits_injective fun k => by rw [nineBits_rorPair, nineBits_rolPair, add_sub_cancel_right]

/-- Settles O36: nine turns of a ring of nine bits, and ROR turns it back. -/
theorem rotatesRunThroughNineBits : Obligations.RotatesRunThroughNineBits := by
  refine ⟨fun v c => nineBits_injective fun k => ?ring, fun s t h => ?undo⟩
  case ring =>
    calc nineBits (rolPair (rolPair (rolPair (rolPair (rolPair (rolPair (rolPair (rolPair (rolPair (v, c)))))))))) k
      _ = nineBits (v, c) (k - 1 - 1 - 1 - 1 - 1 - 1 - 1 - 1 - 1) := by simp only [nineBits_rolPair]
      _ = nineBits (v, c) k := congrArg _ (by revert k; decide)
  case undo =>
    obtain rfl := Host.Outcome.next.inj ((exec_rolAcc s).symm.trans h)
    have back := rorPair_rolPair (s.a, s.p.c)
    exact ⟨_, exec_rorAcc _, congrArg Prod.fst back, congrArg Prod.snd back, by simp⟩

end Sys2Proof.Machine
end

section
/-! PROOFS. The status on the stack, JSR, the trap and its return (45_stack_subroutine.md R281, R283, R284, R286, R287),
and STA (46_load_store_transfer.md R303). -/

namespace Sys2Proof.Machine

/-! ### Slots below and above SP by their numbers (20_memory.md R85, R86) -/

theorem State.eq_stackSlot_push {s : State} {slot : Addr} (v : Byte) (h : slot.toNat = 256 + (s.sp.toNat + 255) % 256) :
    slot = (s.push v).stackSlot :=
  State.eq_stackSlot (h.trans (congrArg (256 + ·) (sub_one_toNat s.sp).symm))

theorem pushedP_eq (p : Flags) : pushedP p = readP p ||| 0x30#8 := by
  obtain ⟨n, v, b, d, i, z, c⟩ := p
  revert n v b d i z c
  decide

/-- Settles O43: PHP is a push of the packed status, PLP a pull into the flags. -/
theorem pushAndPullStatus : Obligations.PushAndPullStatus := by
  refine ⟨rfl, rfl, fun s slot pulledSlot hslot hpulled => ⟨?push, ?pull⟩⟩
  case push =>
    obtain rfl := State.eq_stackSlot hslot
    refine ⟨_, exec_php s, ?_, fun addr other => s.read_write_other _ other, rfl⟩
    exact (s.read_write_same s.stackSlot _).trans (pushedP_eq s.p)
  case pull =>
    refine ⟨writeP s.pulled, ?_, exec_plp s⟩
    rw [readP_writeP, s.pulled_eq hpulled]

/-! ### JSR (45_stack_subroutine.md R284) -/

theorem returnAddress_toNat (s : State) : s.returnAddress.toNat = (s.pc.toNat + 2) % 65536 := BitVec.toNat_add ..

theorem State.push_stackSlot_ne (s : State) (v : Byte) : (s.push v).stackSlot ≠ s.stackSlot := by
  rw [Ne, stackSlot_inj, State.push_sp]
  bv_omega

/-- A pushed word read back from its two slots, which differ also where SP wraps. -/
theorem State.read_pushWord_slots (s : State) (w : Addr) :
    256 * ((s.pushWord w).read s.stackSlot).toNat + ((s.pushWord w).read (s.push (highByte w)).stackSlot).toNat =
      w.toNat := by
  rw [s.read_pushWord, s.read_pushWord, if_pos rfl, if_neg (s.push_stackSlot_ne _).symm, if_pos rfl, ← hiLo_toNat,
    hiLo_halves]

/-- Settles O44: JSR is a pushed return address and a jump. -/
theorem jsrPushesReturnAddress : Obligations.JsrPushesReturnAddress := by
  intro s w high low hhigh hlow
  obtain rfl := State.eq_stackSlot hhigh
  obtain rfl := State.eq_stackSlot_push (highByte s.returnAddress) hlow
  refine ⟨rfl, _, exec_jsrAbs w s, ?word, fun addr notHigh notLow => ?others, ?state⟩
  case word => exact (s.read_pushWord_slots s.returnAddress).trans (returnAddress_toNat s)
  case others =>
    have pushed := s.read_pushWord s.returnAddress addr
    rwa [if_neg notLow, if_neg notHigh] at pushed
  case state =>
    have sp : s.sp - 1#8 - 1#8 = s.sp - 2#8 := by bv_omega
    rw [← sp]
    rfl

/-! ### The trap and the return (45_stack_subroutine.md R286, R287) -/

theorem State.ext {s t : State} (a : s.a = t.a) (x : s.x = t.x) (y : s.y = t.y) (sp : s.sp = t.sp) (pc : s.pc = t.pc)
    (p : s.p = t.p) (mem : s.mem = t.mem) (running : s.running = t.running) (halt : s.halt = t.halt)
    (hostStops : s.hostStops = t.hostStops) : s = t := by
  cases s
  cases t
  simp_all

theorem State.eq_stackSlot_pushWord {s : State} {slot : Addr} (w : Addr)
    (h : slot.toNat = 256 + (s.sp.toNat + 254) % 256) : slot = (s.pushWord w).stackSlot := by
  apply State.eq_stackSlot
  rw [h, State.pushWord_sp, sub_one_toNat, sub_one_toNat]
  omega

theorem State.read_takeBreak (s : State) (addr : Addr) :
    s.takeBreak.read addr =
      if addr = (s.pushWord s.returnAddress).stackSlot then pushedP s.p else (s.pushWord s.returnAddress).read addr :=
  (State.read_congr s.takeBreak_mem addr).trans (State.read_push ..)

/-- The status goes into a third slot, apart from the word's two. -/
theorem State.pushWord_stackSlot_ne (s : State) (w : Addr) (v : Byte) :
    s.stackSlot ≠ (s.pushWord w).stackSlot ∧ (s.push v).stackSlot ≠ (s.pushWord w).stackSlot := by
  rw [Ne, Ne, stackSlot_inj, stackSlot_inj, State.pushWord_sp, State.push_sp]
  constructor <;> bv_omega

/-- Settles O46: BRK is a pushed return address and status, with the vector outside the stack page. -/
theorem brkTakesTheTrap : Obligations.BrkTakesTheTrap := by
  refine ⟨rfl, fun s high low status hhigh hlow hstatus => ?_⟩
  obtain rfl := State.eq_stackSlot hhigh
  obtain rfl := State.eq_stackSlot_push (highByte s.returnAddress) hlow
  obtain rfl := State.eq_stackSlot_pushWord s.returnAddress hstatus
  obtain ⟨highApart, lowApart⟩ := s.pushWord_stackSlot_ne s.returnAddress (highByte s.returnAddress)
  refine ⟨_, s.takeBreak.pc, exec_brk s, ?word, ?status, fun addr notHigh notLow notStatus => ?others, ?vector, ?state⟩
  case word =>
    rw [s.read_takeBreak, s.read_takeBreak, if_neg highApart, if_neg lowApart, ← returnAddress_toNat]
    exact s.read_pushWord_slots s.returnAddress
  case status => rw [s.read_takeBreak, if_pos rfl, pushedP_eq]
  case others => rw [s.read_takeBreak, if_neg notStatus, s.read_pushWord, if_neg notLow, if_neg notHigh]
  case vector => exact (congrArg BitVec.toNat s.takeBreak_pc).trans (hiLo_toNat ..)
  case state =>
    have sp : s.sp - 1#8 - 1#8 - 1#8 = s.sp - 3#8 := by bv_omega
    exact State.ext s.takeBreak_a s.takeBreak_x s.takeBreak_y (s.takeBreak_sp.trans sp) rfl s.takeBreak_p rfl
      s.takeBreak_running s.takeBreak_halt s.takeBreak_hostStops

/-- RTI's next state, with its three pulls. -/
theorem State.returnFromBreak_eq (s : State) :
    s.returnFromBreak = { s with sp := s.sp + 3#8, p := writeP s.pulled, pc := s.afterPull.pulledWord } := by
  have sp : s.sp + 1#8 + 1#8 + 1#8 = s.sp + 3#8 := by bv_omega
  exact State.ext s.returnFromBreak_a s.returnFromBreak_x s.returnFromBreak_y (s.returnFromBreak_sp.trans sp)
    s.returnFromBreak_pc s.returnFromBreak_p s.returnFromBreak_mem s.returnFromBreak_running s.returnFromBreak_halt
    s.returnFromBreak_hostStops

/-- Settles O47: RTI is a pull into the flags and a pulled word as PC. -/
theorem rtiReturns : Obligations.RtiReturns := by
  refine ⟨rfl, fun s status low high hstatus hlow hhigh => ?_⟩
  have sp : s.afterPull.sp.toNat = (s.sp.toNat + 1) % 256 := add_one_toNat s.sp
  refine ⟨writeP s.pulled, s.afterPull.pulledWord, ?_, ?_, (exec_rti s).trans (congrArg _ s.returnFromBreak_eq)⟩
  · rw [readP_writeP, s.pulled_eq hstatus]
  · exact s.afterPull.pulledWord_toNat (by omega) (by omega)

theorem State.pulledWord_congr {s t : State} (mem : s.mem = t.mem) (sp : s.sp = t.sp) :
    s.pulledWord = t.pulledWord := by
  have spAbove : s.afterPull.sp = t.afterPull.sp := congrArg (· + 1#8) sp
  rw [State.pulledWord, State.pulledWord, State.pulled_congr mem sp,
    State.pulled_congr (s := s.afterPull) (t := t.afterPull) mem spAbove]

/-- A byte at SP is below the two slots that a word is pulled from. -/
theorem State.pulledWord_write_stackSlot (s : State) (v : Byte) :
    (s.write s.stackSlot v).pulledWord = s.pulledWord := by
  have second : s.afterPull.afterPull.stackSlot ≠ s.stackSlot := by
    rw [Ne, stackSlot_inj, State.afterPull_sp, State.afterPull_sp]
    bv_omega
  have low : (s.write s.stackSlot v).pulled = s.pulled := s.pulled_write_other v s.afterPull_stackSlot_ne
  have high : (s.write s.stackSlot v).afterPull.pulled = s.afterPull.pulled := s.afterPull.pulled_write_other v second
  rw [State.pulledWord, State.pulledWord, low, high]

/-- What BRK pushed is what the pulls after it give: the status first, then the return address. -/
theorem State.takeBreak_pulls (s : State) :
    s.takeBreak.pulled = pushedP s.p ∧ s.takeBreak.afterPull.pulledWord = s.returnAddress := by
  have sp : s.takeBreak.sp = ((s.pushWord s.returnAddress).push (pushedP s.p)).sp := by
    rw [State.takeBreak_sp, State.push_sp, State.pushWord_sp]
  constructor
  · rw [State.pulled_congr s.takeBreak_mem sp, State.pulled_push]
  · calc s.takeBreak.afterPull.pulledWord
      _ = ((s.pushWord s.returnAddress).push (pushedP s.p)).afterPull.pulledWord :=
          State.pulledWord_congr s.takeBreak_mem (congrArg (· + 1#8) sp)
      _ = s.returnAddress := by
          rw [State.afterPull_push, State.pulledWord_write_stackSlot, State.pulledWord_pushWord]

/-- Settles O48: RTI pulls what BRK pushed, and SP is back where it was. -/
theorem brkThenRtiResumes : Obligations.BrkThenRtiResumes := by
  intro s
  obtain ⟨status, returnAddress⟩ := s.takeBreak_pulls
  have sp : s.takeBreak.sp + 3#8 = s.sp := by
    rw [State.takeBreak_sp]
    bv_omega
  refine ⟨_, _, exec_brk s, exec_rti _, ?_⟩
  rw [State.returnFromBreak_eq, status, writeP_pushedP, returnAddress, sp]
  exact State.ext s.takeBreak_a s.takeBreak_x s.takeBreak_y rfl rfl rfl rfl s.takeBreak_running s.takeBreak_halt
    s.takeBreak_hostStops

/-! ### STA (46_load_store_transfer.md R303) -/

theorem sta_eq_storeByte (ea : Addr) (length : Nat) (s : State) : sta ea length s = s.storeByte ea s.a length := rfl

/-- Settles O50: A's byte is stored at the resolver's address. -/
theorem staStoresTheAccumulator : Obligations.StaStoresTheAccumulator := by
  intro i s h
  obtain ⟨isForm, ea, isAddr, runs⟩ := exec_storeForm (mnemonic := .STA) (by decide) rfl (by decide) h s
  rw [sta_eq_storeByte] at runs
  exact ⟨isForm, ea, _, isAddr, runs, s.read_storeByte_same .., fun _ => s.read_storeByte_other _ _, rfl⟩

end Sys2Proof.Machine
end
